-- ==== Sys2Proof/Word.lean ====
section
/-! DEFINITION. The word types of the model: spec/00_scope.md R7 (bit n of a vector has weight 2^n; everything is
unsigned) and R8 (the widths of the values). -/

namespace Sys2Proof

/-- One byte of an instruction word as it lies in memory (30_encoding.md R52). -/
abbrev Byte := BitVec 8

/-- An A64 instruction word, and the word of the External register view (20_memory.md R41). -/
abbrev Word := BitVec 32

/-- The width of TRCIDR4 and of a general register: 64 bits (10_state.md R11, R29). -/
abbrev XWord := BitVec 64

/-- The number of a general register, the 5-bit field Rt (10_state.md R29, 30_encoding.md R53). -/
abbrev RegNum := BitVec 5

end Sys2Proof
end

