-- ==== Sys2Proof/Config.lean ====
section
/-! DEFINITION. The configuration record `Cfg` of spec/00_scope.md R5: every value the source leaves to the
implementation, and nothing else. The model is parametric in it: a state carries its `Cfg` and a claim for every
implementation quantifies over it. A count field cannot hold a reserved value (10_state.md R23: an ill-formed `Cfg` is
refused at construction, so no rule ever sees a reserved value); the check is in WellFormed.lean. -/

namespace Sys2Proof

/-- A count field with reserved values: 0b0000 to 0b1000 are legal, 0b1001 to 0b1111 reserved (R5, 10_state.md R13). -/
abbrev PlainCount := Fin 9

/-- The six count fields as the 4-bit values somebody proposes, reserved ones included: what the check of
10_state.md R23 is made on, and what a reader extracts from a value (R25). -/
structure RawCounts where
  numvmidc   : BitVec 4
  numcidc    : BitVec 4
  numsscc    : BitVec 4
  numrspair  : BitVec 4
  numpc      : BitVec 4
  numacpairs : BitVec 4
  deriving DecidableEq, Repr

/-- The six count fields of a well-formed `Cfg` (R5, 10_state.md R23). NUMRSPAIR has no reserved value
(90_conflicts.md C1). No field constrains another (R6). -/
structure Counts where
  numvmidc   : PlainCount
  numcidc    : PlainCount
  numsscc    : PlainCount
  numrspair  : BitVec 4
  numpc      : PlainCount
  numacpairs : PlainCount
  deriving DecidableEq, Repr

/-- The 4-bit values that well-formed counts stand for. -/
def Counts.raw (c : Counts) : RawCounts where
  numvmidc   := BitVec.ofNat 4 c.numvmidc
  numcidc    := BitVec.ofNat 4 c.numcidc
  numsscc    := BitVec.ofNat 4 c.numsscc
  numrspair  := c.numrspair
  numpc      := BitVec.ofNat 4 c.numpc
  numacpairs := BitVec.ofNat 4 c.numacpairs

/-- The configuration record of R5. `haveEL3` is also R28's context input of that name: one value serves both
(90_conflicts.md C8). `trcidr4ExtOffset` is OPEN (92_eei_decisions.md D12). -/
structure Cfg where
  /-- `ETE_IMPLEMENTED`: the register is present (10_state.md R10). -/
  eteImplemented : Bool
  counts : Counts
  /-- `EL3_TRAP_PRIORITY_WHEN_SDD`: the source's one IMPLEMENTATION_DEFINED Boolean (92_eei_decisions.md D20). -/
  el3TrapPriorityWhenSdd : Bool
  /-- `HAVE_EL3`: the source's `HaveEL(EL3)`. -/
  haveEL3 : Bool
  /-- `TRCIDR4_EXT_OFFSET`: where the External register stands in its frame (20_memory.md R41). R5 gives its type as
  'address' and no width: DESIGN CHOICE (log entry 20, unsafe), an unbounded natural number. -/
  trcidr4ExtOffset : Nat
  deriving DecidableEq, Repr

/-- The configuration the reset state carries. DESIGN CHOICE (log entry 2, unsafe): the spec leaves every field to the
implementation; this is the `Cfg` of the example of 40_sysreg_access.md R60 and of the base row of 95_test_vectors.md
section 3, with the OPEN offset at 0. No statement rests on it. -/
def Cfg.atReset : Cfg where
  eteImplemented := true
  counts := { numvmidc := 1, numcidc := 1, numsscc := 1, numrspair := 7#4, numpc := 0, numacpairs := 4 }
  el3TrapPriorityWhenSdd := false
  haveEL3 := true
  trcidr4ExtOffset := 0

end Sys2Proof
end

