-- ==== Sys2Proof/Syntax.lean ====
section
/-! DEFINITION. The instructions: one constructor per row of spec/opcode_table.json, and the decoded system register
access of spec/30_encoding.md R51 that a decoder at the source's level reads. -/

namespace Sys2Proof

/-- The instructions of the opcode table. The one operand is the register number t of `<Xt>`; there is no immediate
(30_encoding.md R53). -/
inductive Instr where
  /-- `MRS <Xt>, TRCIDR4`, the answer `ReadTRCIDR4(t)` (R57; 40_sysreg_access.md R60). -/
  | mrsTrcidr4 (rt : RegNum)
  /-- `MSR TRCIDR4, <Xt>`, the answer `WriteTRCIDR4(t)`: not an instruction of this hardware, its outcome is `Undefined`
  (R55; 40_sysreg_access.md R81). -/
  | msrTrcidr4 (rt : RegNum)
  deriving DecidableEq, Repr

/-- The register number of an instruction. -/
def Instr.rt : Instr → RegNum
  | .mrsTrcidr4 t => t
  | .msrTrcidr4 t => t

/-- A decoded system register access (R51): a read or a write, the five numbers of the register, and the register
number t. -/
structure SysRegAccess where
  read : Bool
  op0  : BitVec 2
  op1  : BitVec 3
  crn  : BitVec 4
  crm  : BitVec 4
  op2  : BitVec 3
  t    : RegNum
  deriving DecidableEq, Repr

end Sys2Proof
end

