-- ==== Sys2Proof/Decode.lean ====
section
/-! DEFINITION. Decoding and encoding (spec/30_encoding.md): the source's level, five numbers and a register number
(R50, R51), with the three answers of R57; the A64 instruction word (R52); bytes, least significant first (R52); and
the assembler text (R54). The layout of the word is the spec's own general knowledge (93_implementation_defined.md
G10): PRESUMED, log entry 6. -/

namespace Sys2Proof

/-- Why a decoder answers no instruction. -/
inductive Reject where
  /-- `NotThisRegister`: a system register access whose five numbers are not TRCIDR4's (R57). -/
  | notThisRegister (a : SysRegAccess)
  /-- The word is no `MRS` or `MSR` of a system register (R52), so it is outside the spec (00_scope.md R4). -/
  | notSystemRegisterMove (w : Word)
  /-- Fewer than the four bytes of an instruction word (R52). -/
  | truncated
  deriving DecidableEq, Repr

/-- The access that names TRCIDR4, as a read or as a write (R50, R51; S0 of 95_test_vectors.md). -/
def trcidr4Access (read : Bool) (t : RegNum) : SysRegAccess where
  read := read
  op0 := 0b10#2
  op1 := 0b001#3
  crn := 0b0000#4
  crm := 0b1100#4
  op2 := 0b111#3
  t := t

/-- The five numbers are those of R50. -/
def SysRegAccess.namesTrcidr4 (a : SysRegAccess) : Bool :=
  a.op0 == 0b10#2 && a.op1 == 0b001#3 && a.crn == 0b0000#4 && a.crm == 0b1100#4 && a.op2 == 0b111#3

/-- The decoder at the source's level: `ReadTRCIDR4(t)`, `WriteTRCIDR4(t)` or `NotThisRegister` (R57). -/
def decodeAccess (a : SysRegAccess) : Except Reject Instr :=
  if a.namesTrcidr4 then
    if a.read then .ok (.mrsTrcidr4 a.t) else .ok (.msrTrcidr4 a.t)
  else .error (.notThisRegister a)

/-- Bits [31:22] of a system register move (R52). -/
def moveOpcode : BitVec 10 := 0b1101010100#10

/-- The word is a system register move: its fixed bits, and bit [20], "always 1 for a system register move" (R52). -/
def isSystemRegisterMove (w : Word) : Bool := w.extractLsb' 22 10 == moveOpcode && w.getLsbD 20

/-- The fields of a system register move (R52). -/
def accessOfWord (w : Word) : SysRegAccess where
  read := w.getLsbD 21
  op0 := w.extractLsb' 19 2
  op1 := w.extractLsb' 16 3
  crn := w.extractLsb' 12 4
  crm := w.extractLsb' 8 4
  op2 := w.extractLsb' 5 3
  t := w.extractLsb' 0 5

/-- The binary decoder: total on every word. -/
def decodeWord (w : Word) : Except Reject Instr :=
  if isSystemRegisterMove w then decodeAccess (accessOfWord w) else .error (.notSystemRegisterMove w)

/-- The word made of four bytes at increasing addresses, least significant first (R52). -/
def wordOfBytes (b0 b1 b2 b3 : Byte) : Word := b3 ++ b2 ++ b1 ++ b0

/-- The four bytes of a word at increasing addresses (R52). -/
def bytesOfWord (w : Word) : List Byte :=
  [w.extractLsb' 0 8, w.extractLsb' 8 8, w.extractLsb' 16 8, w.extractLsb' 24 8]

/-- The decoder on bytes: the instruction and the bytes after it. -/
def decodeBytes : List Byte → Except Reject (Instr × List Byte)
  | b0 :: b1 :: b2 :: b3 :: rest =>
    match decodeWord (wordOfBytes b0 b1 b2 b3) with
    | .ok i => .ok (i, rest)
    | .error e => .error e
  | _ => .error .truncated

/-- The access an instruction makes (R50, R55). -/
def Instr.sysRegAccess : Instr → SysRegAccess
  | .mrsTrcidr4 t => trcidr4Access true t
  | .msrTrcidr4 t => trcidr4Access false t

/-- The word of a system register access, field by field in the order of R52's table. -/
def SysRegAccess.word (a : SysRegAccess) : Word :=
  moveOpcode ++ BitVec.ofBool a.read ++ a.op0 ++ a.op1 ++ a.crn ++ a.crm ++ a.op2 ++ a.t

/-- The encoder (R52, R55). -/
def encode (i : Instr) : Word := i.sysRegAccess.word

/-- The encoder on bytes (R52). -/
def encodeBytes (i : Instr) : List Byte := bytesOfWord (encode i)

/-- The host's table word: `nbits` bits of `w`, bits above them zero, laid out as the hardware stores them. -/
def decodeTableWord (nbits w : Nat) : Option Instr :=
  match decodeBytes (bytesOfWord (BitVec.ofNat 32 (w % 2 ^ nbits))) with
  | .ok (i, _) => some i
  | .error _ => none

/-- The assembler's name of a general register (R54): `X` and the number, `XZR` for 31. -/
def registerName (t : RegNum) : String := if t = 31#5 then "XZR" else "X" ++ toString t.toNat

/-- The assembler text of an instruction (R54): `MRS <Xt>, TRCIDR4`. The write form has no syntax in the source; its text
is the row of the opcode table's own. -/
def Instr.assembly : Instr → String
  | .mrsTrcidr4 t => "MRS " ++ registerName t ++ ", TRCIDR4"
  | .msrTrcidr4 t => "MSR TRCIDR4, " ++ registerName t

/-- The generic spelling of a system register (R54): `S<op0>_<op1>_C<CRn>_C<CRm>_<op2>`. -/
def SysRegAccess.genericName (a : SysRegAccess) : String :=
  "S" ++ toString a.op0.toNat ++ "_" ++ toString a.op1.toNat ++ "_C" ++ toString a.crn.toNat ++ "_C" ++
    toString a.crm.toNat ++ "_" ++ toString a.op2.toNat

end Sys2Proof
end

