-- ==== Sys2Proof/Machine/State.lean ====
section
/-! DEFINITION. The state, the reasons a step can stop, and the state after reset. The hardware has one constant register
(spec/10_state.md R11, R24), a configuration (00_scope.md R5), the context inputs the access reads (10_state.md R28) and
the general registers the access writes (R29). There is no program counter (R30), no flag (R31), no memory (R32) and no
hidden state (R33). `pending` and `extData` are the model's own fields (log entries 1 and 5). -/

namespace Sys2Proof.Machine

/-- The four Exception levels (10_state.md R28, `PSTATE.EL`). -/
inductive El where
  | el0
  | el1
  | el2
  | el3
  deriving DecidableEq, Repr

/-- The target of a trap, one of EL1, EL2, EL3 (00_scope.md R8). -/
inductive TrapTarget where
  | el1
  | el2
  | el3
  deriving DecidableEq, Repr

/-- The context inputs of 10_state.md R28, each free; `haveEL3` is `Cfg.haveEL3` (90_conflicts.md C8). -/
structure Ctx where
  /-- `PSTATE.EL` -/
  el : El
  /-- `Halted()` -/
  halted : Bool
  /-- `EDSCR.SDD == '1'` -/
  sdd : Bool
  /-- `ELUsingAArch32(EL3)` -/
  el3IsA32 : Bool
  /-- `CPTR_EL3.TTA == '1'` -/
  cptrEl3Tta : Bool
  /-- `CPACR_EL1.TTA == '1'` -/
  cpacrTta : Bool
  /-- `EL2Enabled()` -/
  el2Enabled : Bool
  /-- `ELUsingAArch32(EL2)` -/
  el2IsA32 : Bool
  /-- `CPTR_EL2.TTA == '1'` -/
  cptrEl2Tta : Bool
  /-- `SCR_EL3.FGTEn == '1'` -/
  fgtEn : Bool
  /-- `HDFGRTR_EL2.TRCID == '1'` -/
  hdfgrtrTrcid : Bool
  deriving DecidableEq, Repr

/-- The context the reset state carries. DESIGN CHOICE (log entry 3, unsafe): the spec gives no reset value for any input
(70_reset_and_hazards.md R110); this is the base context of 95_test_vectors.md section 3 at EL1. No statement rests on
it. -/
def Ctx.atReset : Ctx where
  el := .el1
  halted := false
  sdd := false
  el3IsA32 := false
  cptrEl3Tta := false
  cpacrTta := false
  el2Enabled := true
  el2IsA32 := false
  cptrEl2Tta := false
  fgtEn := true
  hdfgrtrTrcid := false

/-- One access of a run (70_reset_and_hazards.md R116), with the inputs the host supplies with it (R117). R116 speaks of the PE's
accesses; that the External reader's stand in the same list is DESIGN CHOICE (log entry 21). -/
inductive Request where
  /-- The PE makes a decoded system register access under a context (30_encoding.md R51). -/
  | access (ctx : Ctx) (a : SysRegAccess)
  /-- The PE executes an instruction word under a context (30_encoding.md R52). -/
  | word (ctx : Ctx) (w : Word)
  /-- The reader of the External register reads it (20_memory.md R41). -/
  | extRead (extOk : Bool)
  /-- The same in `MemRead(addr, n)` notation (20_memory.md R41, R44): `base` is the platform's address of the trace
  unit's frame, `permitted` the conditions the source does not give other than place and width. The spec gives an address no
  width: DESIGN CHOICE (log entry 20, unsafe), `base` and `addr` are unbounded natural numbers. -/
  | extMemRead (base addr n : Nat) (permitted : Bool)
  /-- A write of `v` through the External view (20_memory.md R42). -/
  | extWrite (v : Word)
  deriving DecidableEq, Repr

/-- The machine's state. -/
structure State where
  /-- The implementation (00_scope.md R5). No step writes it (10_state.md R24). -/
  cfg : Cfg
  /-- The context inputs in force at the access (10_state.md R28). -/
  ctx : Ctx
  /-- The general registers X0 to X30 (10_state.md R29). -/
  x : Vector XWord 31
  /-- The word the External reader received last (the model's own field, log entry 5). -/
  extData : Option Word
  /-- The accesses still to be made, in order (the model's own field, log entry 1; 70_reset_and_hazards.md R116). -/
  pending : List Request
  deriving DecidableEq, Repr

/-- Why the machine stops with a fault. Both are the spec's own exceptional outcomes (60_exceptions.md R90); each names the
instruction (R91, R93). -/
inductive Fault where
  /-- `raise Undefined` (60_exceptions.md R91). Raised by `execMrsTrcidr4` (R61, R62, R63, R67, R70, R72) and
  `execMsrTrcidr4` (R81). Safe: delivery is not modelled, so nothing is provable after it (92_eei_decisions.md D9). -/
  | undefined (i : Instr)
  /-- `raise SystemAccessTrap(target, ec)` (60_exceptions.md R92). Raised by `execMrsTrcidr4` (R64, R65, R66, R68, R71, R73,
  R75). Safe: delivery is not modelled (92_eei_decisions.md D10). -/
  | systemAccessTrap (target : TrapTarget) (ec : BitVec 6) (i : Instr)
  deriving DecidableEq, Repr

/-- Why a step gives no meaning. -/
inductive Refusal where
  /-- The instruction has no meaning yet. Raised by no arm: every instruction has its meaning. Safe. -/
  | notModelled (mnemonic : String)
  /-- The access or word is none of this hardware's (30_encoding.md R57, 00_scope.md R4). Raised by `fetch`. Safe. -/
  | notThisHardware (r : Reject)
  /-- An external read for which `ExtRead` is `none` (20_memory.md R41). Raised by `fetch`. Safe. -/
  | externalReadRefused
  /-- A write through the External view (20_memory.md R42). Raised by `fetch`. Safe. -/
  | externalWriteRefused
  /-- The run is complete: there is no access left to make (70_reset_and_hazards.md R116 (i)). Raised by `fetch`. Safe. -/
  | noAccessLeft
  deriving DecidableEq, Repr

/-- The state after reset of an implementation `cfg` under a context `ctx` (70_reset_and_hazards.md R110). The general
registers hold zero: DESIGN CHOICE (log entry 4, unsafe). -/
def State.resetWith (cfg : Cfg) (ctx : Ctx) : State where
  cfg := cfg
  ctx := ctx
  x := Vector.replicate 31 0#64
  extData := none
  pending := []

/-- The state after reset, of the implementation and under the context the log names (log entries 2 and 3). -/
def State.reset : State := State.resetWith Cfg.atReset Ctx.atReset

end Sys2Proof.Machine
end

