-- ==== Sys2Proof/Machine/Operands.lean ====
section
/-! DEFINITION. The one operand form: the general register numbered t, the destination `<Xt>` (spec/00_scope.md R8,
10_state.md R29, 30_encoding.md R53, 40_sysreg_access.md R78). There is no other operand form and no flag (10_state.md
R31), so the model has no Flags file. -/

namespace Sys2Proof.Machine

/-- `x[t]`: X0 to X30, and zero for 31, the zero register XZR (10_state.md R29). That XZR reads as zero is PRESUMED from its
name (log entry 7); no instruction reads a general register (40_sysreg_access.md R60). -/
def State.readX (s : State) (t : RegNum) : XWord :=
  if h : t.toNat < 31 then s.x[t.toNat] else 0#64

/-- `x[t] <- v`: for 31 the value is discarded and no register changes (40_sysreg_access.md R78). -/
def State.writeX (s : State) (t : RegNum) (v : XWord) : State :=
  if h : t.toNat < 31 then { s with x := s.x.set t.toNat v } else s

end Sys2Proof.Machine
end

