-- ==== Sys2Proof/WellFormed.lean ====
section
/-! DEFINITION. The checks: which six field values are a configuration (spec/10_state.md R23, a decidable check with
five named clauses), and which instructions are well formed (all of them: spec/30_encoding.md R53). -/

namespace Sys2Proof

/-- The five named clauses of R23, one for each count field that has reserved values. -/
inductive CountClause where
  | numvmidc
  | numcidc
  | numsscc
  | numpc
  | numacpairs
  deriving DecidableEq, Repr

/-- The field a clause speaks of. -/
def RawCounts.field (r : RawCounts) : CountClause → BitVec 4
  | .numvmidc   => r.numvmidc
  | .numcidc    => r.numcidc
  | .numsscc    => r.numsscc
  | .numpc      => r.numpc
  | .numacpairs => r.numacpairs

/-- One clause of R23: the field is at most 8, as an unsigned 4-bit integer. -/
def RawCounts.meets (r : RawCounts) (c : CountClause) : Bool := (r.field c).toNat ≤ 8

/-- The clauses in the order R23 writes them. -/
def CountClause.all : List CountClause := [.numvmidc, .numcidc, .numsscc, .numpc, .numacpairs]

/-- The check of R23: the first clause that fails, or none. NUMRSPAIR is not checked (90_conflicts.md C1). -/
def RawCounts.violated (r : RawCounts) : Option CountClause := CountClause.all.find? (fun c => !r.meets c)

/-- The six field values are well formed (R23). -/
abbrev RawCounts.WellFormed (r : RawCounts) : Prop := r.violated = none

/-- Construction of a configuration's counts from six 4-bit values: refused, naming the clause, when the check fails
(R23, 92_eei_decisions.md D4). -/
def Counts.build (r : RawCounts) : Except CountClause Counts :=
  match r.violated with
  | some c => .error c
  | none => .ok {
      numvmidc   := Fin.ofNat 9 r.numvmidc.toNat
      numcidc    := Fin.ofNat 9 r.numcidc.toNat
      numsscc    := Fin.ofNat 9 r.numsscc.toNat
      numrspair  := r.numrspair
      numpc      := Fin.ofNat 9 r.numpc.toNat
      numacpairs := Fin.ofNat 9 r.numacpairs.toNat }

/-- Every instruction is well formed: the one operand is a 5-bit register number, and all 32 are legal, 31 naming XZR
(30_encoding.md R53). -/
def Instr.wellFormed : Instr → Bool
  | .mrsTrcidr4 _ => true
  | .msrTrcidr4 _ => true

end Sys2Proof
end

