-- ==== Sys2Proof/Machine/Trcidr4.lean ====
section
/-! DEFINITION. The value of TRCIDR4 and how a reader takes it apart: spec/10_state.md R11 to R25 and R27. -/

namespace Sys2Proof.Machine

/-- The 64-bit value made of six count fields (R22): bits [63:32], [11:9], [8] and [7:4] are zero (R12, R18, R19, R20). -/
def assemble (r : RawCounts) : XWord :=
  0#32 ++ r.numvmidc ++ r.numcidc ++ r.numsscc ++ r.numrspair ++ r.numpc ++ 0b000#3 ++ 0b0#1 ++ 0b0000#4 ++ r.numacpairs

/-- The value of the register of an implementation, where the register is present (R10, R22). -/
def trcidr4 (cfg : Cfg) : XWord := assemble cfg.counts.raw

/-- The 32 bits of the External register (R27). -/
def trcidr4Ext (cfg : Cfg) : Word := (trcidr4 cfg).extractLsb' 0 32

/-- The six count fields of a value (R25). -/
def rawCountsOf (v : XWord) : RawCounts where
  numvmidc   := v.extractLsb' 28 4
  numcidc    := v.extractLsb' 24 4
  numsscc    := v.extractLsb' 20 4
  numrspair  := v.extractLsb' 16 4
  numpc      := v.extractLsb' 12 4
  numacpairs := v.extractLsb' 0 4

/-- SUPPDAC, bit [8] (R19, R25). -/
def suppdacOf (v : XWord) : BitVec 1 := v.extractLsb' 8 1

/-- NUMDVC, bits [7:4] (R20, R25). -/
def numdvcOf (v : XWord) : BitVec 4 := v.extractLsb' 4 4

/-- The name under which a reader reports bit [8] (R19). -/
inductive Bit8Name where
  | suppdac
  | res0
  deriving DecidableEq, Repr

/-- Bit [8] is named SUPPDAC when NUMACPAIRS is not zero and is RES0 otherwise (R19). -/
def bit8Name (v : XWord) : Bit8Name := if (rawCountsOf v).numacpairs = 0#4 then .res0 else .suppdac

/-- `count_VMIDC`, `count_CIDC`, `count_SSCC`, `count_PC` and `count_ACPAIRS`: the field value, where it is legal; a
reserved value is an unknown number (R13, R14, R15, R17, R21, R23). -/
def plainCount (f : BitVec 4) : Option Nat := if f.toNat ≤ 8 then some f.toNat else none

/-- `count_DVC`: zero (R20). The field is the constant 0b0000 in this hardware; any other value is another trace architecture's
(90_conflicts.md C3) and is no count here, as a reserved value is none in `plainCount`. -/
def dvcCount (f : BitVec 4) : Option Nat := if f = 0#4 then some 0 else none

/-- `count_RSPAIR`: zero for zero, otherwise one more than the field (R16, 90_conflicts.md C6). -/
def rsPairCount (f : BitVec 4) : Nat := if f = 0#4 then 0 else f.toNat + 1

/-- The bits of a value that can ever be one (R22). -/
def valueMask : XWord := 0x00000000FFFFF00F#64

/-- The 64-bit value can be a TRCIDR4 of this hardware: no bit outside the mask and no reserved field (R22, R23). -/
def isTrcidr4Value (v : XWord) : Bool := v &&& ~~~valueMask == 0#64 && (rawCountsOf v).violated == none

end Sys2Proof.Machine
end

