-- ==== Sys2Proof/Machine/Ops.lean ====
section
/-! DEFINITION. The shared operations: the outcome of an access and what the instruction does with it (spec/00_scope.md R8,
40_sysreg_access.md R78, R79), raising an exception (60_exceptions.md R91, R92, R96), and the External read (20_memory.md
R41, R44). The spec describes no exception entry and no return: raising ends the step and changes no state (R96, R97). -/

namespace Sys2Proof.Machine

/-- The result of the access rule (00_scope.md R8). -/
inductive AccessOutcome where
  | value (v : XWord)
  | undefined
  | trap (target : TrapTarget) (ec : BitVec 6)
  deriving DecidableEq, Repr

/-- The code of every trap of this access (60_exceptions.md R92). -/
def trapEc : BitVec 6 := 0x18#6

/-- `raise Undefined` (00_scope.md R8, 60_exceptions.md R91). -/
def raiseUndefined (i : Instr) : Host.Outcome State Fault Refusal := .fault (.undefined i)

/-- `raise SystemAccessTrap(target, ec)` (00_scope.md R8, 60_exceptions.md R92). -/
def raiseSystemAccessTrap (target : TrapTarget) (ec : BitVec 6) (i : Instr) : Host.Outcome State Fault Refusal :=
  .fault (.systemAccessTrap target ec i)

/-- What an instruction does with the outcome of its access: a value goes to its register and nothing else changes
(40_sysreg_access.md R78); an exceptional outcome is raised and nothing is written (R79). -/
def conclude (i : Instr) (o : AccessOutcome) (s : State) : Host.Outcome State Fault Refusal :=
  match o with
  | .value v => .next (s.writeX i.rt v)
  | .undefined => raiseUndefined i
  | .trap target ec => raiseSystemAccessTrap target ec i

/-- `ExtRead(Cfg, extOk)` (20_memory.md R41). -/
def extRead (cfg : Cfg) (extOk : Bool) : Option Word :=
  if cfg.eteImplemented && extOk then some (trcidr4Ext cfg) else none

/-- `extOk` for an access of `n` bytes at `addr` to the frame at `base`: at the one address and the one width, aligned, and
with every condition the source does not give met (20_memory.md R41, R44). DESIGN CHOICE (log entry 20, unsafe): the spec gives an
address no width, so the sum `base + offset` is one of natural numbers and never wraps. -/
def extOkAt (cfg : Cfg) (base addr n : Nat) (permitted : Bool) : Bool :=
  permitted && addr == base + cfg.trcidr4ExtOffset && n == 4 && addr % 4 == 0

/-- `MemRead(addr, n)` of the External view (20_memory.md R41, R44). -/
def extMemRead (cfg : Cfg) (base addr n : Nat) (permitted : Bool) : Option Word :=
  extRead cfg (extOkAt cfg base addr n permitted)

/-- The syndrome a PE would record for a trapped access, for an integrator only: EC, IL = 1, and the ISS of
60_exceptions.md R96. PRESUMED (log entry 9): all of it is the spec's general knowledge, no rule uses it, and nothing in
the machine reads it. -/
def syndrome (ec : BitVec 6) (a : SysRegAccess) : Word :=
  ec ++ 1#1 ++ 0#3 ++ a.op0 ++ a.op2 ++ a.op1 ++ a.crn ++ a.t ++ a.crm ++ BitVec.ofBool a.read

end Sys2Proof.Machine
end

