-- ==== Sys2Proof/Machine/SysRegAccess.lean ====
section
/-! DEFINITION. The system register access: the chain of spec/40_sysreg_access.md section 1, one name per arm (R61 to R76),
the outcome of each arm, and the meanings of the two instructions (R60, R81). -/

namespace Sys2Proof.Machine

/-- The arms of the chain, one for each of R61 to R76. -/
inductive Arm where
  /-- R61 -/
  | absent
  /-- R62 -/
  | el0
  /-- R63 -/
  | el1SddPrioritised
  /-- R64 -/
  | el1CpacrTta
  /-- R65 -/
  | el1CptrEl2Tta
  /-- R66 -/
  | el1FineGrained
  /-- R67 -/
  | el1Sdd
  /-- R68 -/
  | el1CptrEl3Tta
  /-- R69 -/
  | el1Value
  /-- R70 -/
  | el2SddPrioritised
  /-- R71 -/
  | el2CptrEl2Tta
  /-- R72 -/
  | el2Sdd
  /-- R73 -/
  | el2CptrEl3Tta
  /-- R74 -/
  | el2Value
  /-- R75 -/
  | el3CptrEl3Tta
  /-- R76 -/
  | el3Value
  deriving DecidableEq, Repr

/-- The condition of R63 and R70: all six of Debug state, EL3 implemented, SDD, the implementation's priority Boolean, EL3
not using AArch32, and `CPTR_EL3.TTA`. -/
def sddPrioritised (cfg : Cfg) (c : Ctx) : Bool :=
  c.halted && cfg.haveEL3 && c.sdd && cfg.el3TrapPriorityWhenSdd && !c.el3IsA32 && c.cptrEl3Tta

/-- EL2 is enabled and using AArch64: the guard of R65 and R66. -/
def el2TrapsEl1 (c : Ctx) : Bool := c.el2Enabled && !c.el2IsA32

/-- The fine-grained trap is in force: EL3 absent, or `SCR_EL3.FGTEn` (R66). -/
def fineGrainedInForce (cfg : Cfg) (c : Ctx) : Bool := !cfg.haveEL3 || c.fgtEn

/-- The EL3 trap condition of R67, R68, R72 and R73. -/
def el3Traps (cfg : Cfg) (c : Ctx) : Bool := cfg.haveEL3 && !c.el3IsA32 && c.cptrEl3Tta

/-- The chain at EL1 (R63 to R69), in the order written (R77). -/
def armAtEl1 (cfg : Cfg) (c : Ctx) : Arm :=
  if sddPrioritised cfg c then .el1SddPrioritised
  else if c.cpacrTta then .el1CpacrTta
  else if el2TrapsEl1 c && c.cptrEl2Tta then .el1CptrEl2Tta
  else if el2TrapsEl1 c && fineGrainedInForce cfg c && c.hdfgrtrTrcid then .el1FineGrained
  else if el3Traps cfg c then
    if c.halted && c.sdd then .el1Sdd else .el1CptrEl3Tta
  else .el1Value

/-- The chain at EL2 (R70 to R74). -/
def armAtEl2 (cfg : Cfg) (c : Ctx) : Arm :=
  if sddPrioritised cfg c then .el2SddPrioritised
  else if c.cptrEl2Tta then .el2CptrEl2Tta
  else if el3Traps cfg c then
    if c.halted && c.sdd then .el2Sdd else .el2CptrEl3Tta
  else .el2Value

/-- The chain at EL3 (R75, R76). -/
def armAtEl3 (c : Ctx) : Arm := if c.cptrEl3Tta then .el3CptrEl3Tta else .el3Value

/-- The arm that decides: presence first (R61, 92_eei_decisions.md D5), then the Exception level's own chain (R77). -/
def arm (cfg : Cfg) (c : Ctx) : Arm :=
  if cfg.eteImplemented then
    match c.el with
    | .el0 => .el0
    | .el1 => armAtEl1 cfg c
    | .el2 => armAtEl2 cfg c
    | .el3 => armAtEl3 c
  else .absent

/-- The outcome of each arm (R61 to R76; the tables of 60_exceptions.md R91 and R92). -/
def Arm.outcome (cfg : Cfg) : Arm → AccessOutcome
  | .absent => .undefined
  | .el0 => .undefined
  | .el1SddPrioritised => .undefined
  | .el1CpacrTta => .trap .el1 trapEc
  | .el1CptrEl2Tta => .trap .el2 trapEc
  | .el1FineGrained => .trap .el2 trapEc
  | .el1Sdd => .undefined
  | .el1CptrEl3Tta => .trap .el3 trapEc
  | .el1Value => .value (trcidr4 cfg)
  | .el2SddPrioritised => .undefined
  | .el2CptrEl2Tta => .trap .el2 trapEc
  | .el2Sdd => .undefined
  | .el2CptrEl3Tta => .trap .el3 trapEc
  | .el2Value => .value (trcidr4 cfg)
  | .el3CptrEl3Tta => .trap .el3 trapEc
  | .el3Value => .value (trcidr4 cfg)

/-- `Access(Cfg, Ctx)` (R60 to R77). -/
def access (cfg : Cfg) (c : Ctx) : AccessOutcome := (arm cfg c).outcome cfg

/-- The access of the write form: `Undefined` for every configuration and context, without consulting either
(R81, 92_eei_decisions.md D8). -/
def writeAccess : AccessOutcome := .undefined

/-- `MRS <Xt>, TRCIDR4` (R60). -/
def execMrsTrcidr4 (t : RegNum) (s : State) : Host.Outcome State Fault Refusal :=
  conclude (.mrsTrcidr4 t) (access s.cfg s.ctx) s

/-- `MSR TRCIDR4, <Xt>` (R81): not an instruction of this hardware. -/
def execMsrTrcidr4 (t : RegNum) (s : State) : Host.Outcome State Fault Refusal :=
  conclude (.msrTrcidr4 t) writeAccess s

end Sys2Proof.Machine
end

