-- ==== Sys2Proof/Machine/Dispatch.lean ====
section
/-! DEFINITION. One arm per constructor of Instr, each one direct call of its meaning. -/

namespace Sys2Proof.Machine

def exec (i : Instr) (s : State) : Host.Outcome State Fault Refusal :=
  match i with
  | .mrsTrcidr4 rt => Sys2Proof.Machine.execMrsTrcidr4 rt s
  | .msrTrcidr4 rt => Sys2Proof.Machine.execMsrTrcidr4 rt s

end Sys2Proof.Machine
end

