-- ==== Sys2Proof/Machine/Fetch.lean ====
section
/-! DEFINITION. Taking the next access of the run (spec/70_reset_and_hazards.md R116): the head of `pending`, decoded
(30_encoding.md R57), or served (20_memory.md R41), or refused (00_scope.md R4, 20_memory.md R42).
How served and refused accesses count in a run is the model's choice (log entry 21). -/

namespace Sys2Proof.Machine

/-- What the next access of a run is. That an access the spec gives no meaning stops the run is DESIGN CHOICE (log entry 21,
safe). -/
inductive Fetched where
  /-- The PE executes `i` in the state `s` (the access taken off the list and its context in force). -/
  | run (i : Instr) (s : State)
  /-- The External reader receives `v` in the state `s`. -/
  | external (v : Word) (s : State)
  /-- The spec gives the access no meaning, or there is none left. -/
  | stop (r : Refusal)
  deriving DecidableEq, Repr

/-- The PE's access under a context: the inputs are the values in `Ctx` at the access (20_memory.md R47). -/
def fetchInstr (d : Except Reject Instr) (ctx : Ctx) (rest : List Request) (s : State) : Fetched :=
  match d with
  | .ok i => .run i { s with ctx := ctx, pending := rest }
  | .error e => .stop (.notThisHardware e)

/-- An external read: `none` is refused (20_memory.md R41). -/
def fetchExternal (d : Option Word) (rest : List Request) (s : State) : Fetched :=
  match d with
  | some v => .external v { s with pending := rest }
  | none => .stop .externalReadRefused

/-- The next access of the run. An empty list is a complete run (R116 (i)): DESIGN CHOICE, the step is refused by name
(log entry 1). -/
def fetch (s : State) : Fetched :=
  match s.pending with
  | [] => .stop .noAccessLeft
  | .access ctx a :: rest => fetchInstr (decodeAccess a) ctx rest s
  | .word ctx w :: rest => fetchInstr (decodeWord w) ctx rest s
  | .extRead extOk :: rest => fetchExternal (extRead s.cfg extOk) rest s
  | .extMemRead base addr n permitted :: rest => fetchExternal (extMemRead s.cfg base addr n permitted) rest s
  | .extWrite _ :: _ => .stop .externalWriteRefused

/-- The External reader receives a word; nothing of the hardware changes (40_sysreg_access.md R83, 20_memory.md R45). -/
def deliverExternal (v : Word) (s : State) : State := { s with extData := some v }

end Sys2Proof.Machine
end

