-- ==== Sys2Proof/Machine/Step.lean ====
section
/-! DEFINITION. One step is one access of the run (spec/70_reset_and_hazards.md R116; an external access too, log entry 21). -/

namespace Sys2Proof.Machine

/-- One step. -/
def step (s : State) : Host.Outcome State Fault Refusal :=
  match fetch s with
  | .run i s' => exec i s'
  | .external v s' => .next (deliverExternal v s')
  | .stop r => .refused r

/-- The state with one instruction word put before the accesses still to be made, under the context the state holds: this is
how a program comes to run (log entry 1). -/
def State.withFetchWord (s : State) (nbits w : Nat) : State :=
  { s with pending := .word s.ctx (BitVec.ofNat 32 (w % 2 ^ nbits)) :: s.pending }

end Sys2Proof.Machine
end

