-- ==== Sys2Proof/Safety.lean ====
section
/-! DEFINITION. The terms the claims use: when a read may succeed (spec/70_reset_and_hazards.md R111, written from that rule's
own words and not from the chain), when each exceptional outcome arises, what a run is, how it ends and what it lets an
observer see (R116; for external and refused accesses log entry 21), and what stays true along it (10_state.md R24). -/

namespace Sys2Proof.Machine

/-- If EL3 is implemented and using AArch64, `CPTR_EL3.TTA` is set (R111's last condition at EL1 and EL2, negated). -/
abbrev el3Stops (cfg : Cfg) (c : Ctx) : Prop := cfg.haveEL3 = true ∧ c.el3IsA32 = false ∧ c.cptrEl3Tta = true

/-- EL2 is enabled and using AArch64, and `CPTR_EL2.TTA` is set or the fine-grained trap is requested and in force, that is
with EL3 absent or `SCR_EL3.FGTEn` set (R111's middle condition at EL1, negated). -/
abbrev el2StopsEl1 (cfg : Cfg) (c : Ctx) : Prop :=
  c.el2Enabled = true ∧ c.el2IsA32 = false ∧
    (c.cptrEl2Tta = true ∨ c.hdfgrtrTrcid = true ∧ (cfg.haveEL3 = false ∨ c.fgtEn = true))

/-- The preconditions of a successful read (R111). -/
abbrev ReadPermitted (cfg : Cfg) (c : Ctx) : Prop :=
  cfg.eteImplemented = true ∧ c.el ≠ .el0 ∧
    (c.el = .el1 → c.cpacrTta = false ∧ ¬ el2StopsEl1 cfg c ∧ ¬ el3Stops cfg c) ∧
    (c.el = .el2 → c.cptrEl2Tta = false ∧ ¬ el3Stops cfg c) ∧
    (c.el = .el3 → c.cptrEl3Tta = false)

/-- Debug state with `EDSCR.SDD` set turns the EL3 trap into `Undefined` (60_exceptions.md R100). -/
abbrev debugHidesEl3Trap (cfg : Cfg) (c : Ctx) : Prop := el3Stops cfg c ∧ c.halted = true ∧ c.sdd = true

/-- That `Undefined` outranks the traps to EL1 and EL2 (60_exceptions.md R94, R100). -/
abbrev debugOutranks (cfg : Cfg) (c : Ctx) : Prop := debugHidesEl3Trap cfg c ∧ cfg.el3TrapPriorityWhenSdd = true

/-- What an observer sees of one access (R116: "the list of outcomes"). That an external read has an entry of its own in that
list is DESIGN CHOICE (log entry 21): R116 speaks of the outcomes of the PE's accesses only. -/
inductive Seen where
  | direct (o : AccessOutcome)
  | external (v : Word)
  deriving DecidableEq, Repr

/-- An access with the outcome `Value` (R116 (i)); or an external read that was served, which R116 leaves open: DESIGN CHOICE (log
entry 21), it completes. -/
def Seen.completes : Seen → Bool
  | .direct (.value _) => true
  | .direct .undefined => false
  | .direct (.trap _ _) => false
  | .external _ => true

/-- The outcome of an instruction's access (40_sysreg_access.md R60, R81). -/
def instrOutcome (cfg : Cfg) (c : Ctx) : Instr → AccessOutcome
  | .mrsTrcidr4 _ => access cfg c
  | .msrTrcidr4 _ => writeAccess

/-- What an observer sees of the next access; nothing where the spec gives the access no meaning (DESIGN CHOICE, log entry
21). -/
def observe (s : State) : Option Seen :=
  match fetch s with
  | .run i s' => some (.direct (instrOutcome s'.cfg s'.ctx i))
  | .external v _ => some (.external v)
  | .stop _ => none

/-- The accesses of the External reader that read (20_memory.md R41), in either of their two forms. -/
def Request.isExternalRead : Request → Bool
  | .access _ _ => false
  | .word _ _ => false
  | .extRead _ => true
  | .extMemRead _ _ _ _ => true
  | .extWrite _ => false

/-- How a run ends. R116 (92_eei_decisions.md D26) names two ways: `final`, and `faulted` at the first access that raises an
exception, in the state it stopped in, which is not final. `refused` is the model's own third way, DESIGN CHOICE (log entry
21, safe): stopped, not final, at an access the spec gives no meaning (an external read that is `none`, an external write, a
word or access of no register of this hardware). -/
inductive RunEnd where
  | final (s : State)
  | faulted (s : State) (f : Fault)
  | refused (s : State) (r : Refusal)
  deriving DecidableEq, Repr

/-- `n` accesses of a run, stopping at the first that does not complete: at an exception by R116 (ii), at a refused access by
DESIGN CHOICE (log entry 21). -/
def runFor : Nat → State → RunEnd
  | 0, s => .final s
  | n + 1, s =>
    match step s with
    | .next s' => runFor n s'
    | .fault f => .faulted s f
    | .refused r => .refused s r

/-- The outcomes of `n` accesses of a run, up to and with the first that raises an exception (R116); a refused access ends the list
and has no entry in it (DESIGN CHOICE, log entry 21). -/
def outcomesFor : Nat → State → List Seen
  | 0, _ => []
  | n + 1, s =>
    match observe s with
    | none => []
    | some o =>
      o :: match step s with
        | .next s' => outcomesFor n s'
        | .fault _ => []
        | .refused _ => []

/-- The run of all accesses a state holds (R116), external ones among them (DESIGN CHOICE, log entry 21). -/
def run (s : State) : RunEnd := runFor s.pending.length s

/-- The outcomes of that run. -/
def outcomes (s : State) : List Seen := outcomesFor s.pending.length s

/-- What every state `s` reached from `s0` has: the implementation, hence the value of the register, is the same (10_state.md
R24); every general register holds what it held or the value of a register that is present; and the External reader holds
what it held or bits [31:0] of that value (20_memory.md R41). -/
structure ReachedFrom (s0 s : State) : Prop where
  cfg_eq : s.cfg = s0.cfg
  reg_ok : ∀ t : RegNum, s.readX t = s0.readX t ∨ (s0.cfg.eteImplemented = true ∧ s.readX t = trcidr4 s0.cfg)
  ext_ok : s.extData = s0.extData ∨ (s0.cfg.eteImplemented = true ∧ s.extData = some (trcidr4Ext s0.cfg))

end Sys2Proof.Machine
end

