-- ==== Sys2Proof/Certificates/Slice0/Obligations.lean ====
section
/-! DEFINITION. The statements for the provers. Each docstring names the rules of spec/ it formalises; a statement that rests
on a decision or a derivation of the spec's own, or on an entry of the model's log, says so. -/

open Sys2Proof Sys2Proof.Machine

/-! ## The value (10_state.md) -/

/-- R22: the value is the weighted sum of the six count fields; no bit outside the mask is ever one and every bit of the mask
can be one; the largest value is 0x888F8008 and the smallest 0. The last three are the spec's own derivation. -/
def Obligations.ValueIsTheWeightedSumOfTheCounts : Prop :=
  (∀ cfg : Cfg, (trcidr4 cfg).toNat =
      cfg.counts.numvmidc.val * 2 ^ 28 + cfg.counts.numcidc.val * 2 ^ 24 + cfg.counts.numsscc.val * 2 ^ 20 +
        cfg.counts.numrspair.toNat * 2 ^ 16 + cfg.counts.numpc.val * 2 ^ 12 + cfg.counts.numacpairs.val) ∧
  (∀ n : Nat, valueMask.getLsbD n = true ↔ ∃ cfg : Cfg, (trcidr4 cfg).getLsbD n = true) ∧
  (∀ cfg : Cfg, (trcidr4 cfg).toNat ≤ 0x888F8008) ∧
  (∃ cfg : Cfg, trcidr4 cfg = 0x888F8008#64) ∧ (∃ cfg : Cfg, trcidr4 cfg = 0#64)

/-- R25: extracting the fields of an assembled value gives the fields back, whatever six 4-bit values they are, and assembling
the fields extracted from a value of the register gives the value back. The spec's own derivation. -/
def Obligations.ExtractionAndAssemblyAreInverse : Prop :=
  (∀ r : RawCounts, rawCountsOf (assemble r) = r) ∧
  (∀ cfg : Cfg, assemble (rawCountsOf (trcidr4 cfg)) = trcidr4 cfg)

/-- R22 and R23: the 64-bit values that pass the check are exactly the values of the register. -/
def Obligations.ValueCheckAcceptsExactlyTheRegisterValues : Prop :=
  ∀ v : XWord, isTrcidr4Value v = true ↔ ∃ cfg : Cfg, trcidr4 cfg = v

/-- R23 (decision D4): construction accepts six field values exactly when the five clauses hold, NUMRSPAIR being free, and what
it builds stands for those values; a refusal names a clause that fails. -/
def Obligations.BuildAcceptsExactlyTheFiveClauses : Prop :=
  ∀ r : RawCounts,
    ((∃ c, Counts.build r = .ok c) ↔
      r.numvmidc.toNat ≤ 8 ∧ r.numcidc.toNat ≤ 8 ∧ r.numsscc.toNat ≤ 8 ∧ r.numpc.toNat ≤ 8 ∧ r.numacpairs.toNat ≤ 8) ∧
    (∀ c, Counts.build r = .ok c → c.raw = r) ∧
    (∀ k, Counts.build r = .error k → 8 < (r.field k).toNat)

/-- R23: there are 944784 well-formed combinations of the six count fields. The spec's own derivation. -/
def Obligations.WellFormedCombinationsNumber944784 : Prop :=
  Nat.card (Subtype RawCounts.WellFormed) = 944784

/-- R16: NUMRSPAIR counts no pair for 0 and one more than its value otherwise, so 0 to 16 pairs but never one; and a reader
finds it in bits [19:16], where no value is reserved. -/
def Obligations.ResourceSelectorPairsFollowTheCodedLaw : Prop :=
  (∀ cfg : Cfg, (trcidr4 cfg).extractLsb' 16 4 = cfg.counts.numrspair) ∧
  (∀ f : BitVec 4, rsPairCount f = if f = 0#4 then 0 else f.toNat + 1) ∧
  (∀ n : Nat, (∃ f : BitVec 4, rsPairCount f = n) ↔ n ≤ 16 ∧ n ≠ 1) ∧
  (∀ f : BitVec 4, ∃ cfg : Cfg, cfg.counts.numrspair = f)

/-- R13, R14, R15, R17 and R21: each plain count stands in its own bits, is the field read as an unsigned integer, at most 8,
and every count from 0 to 8 occurs; the values above 8 are no counts. -/
def Obligations.PlainCountsStandInTheirBits : Prop :=
  (∀ cfg : Cfg,
    plainCount ((trcidr4 cfg).extractLsb' 28 4) = some cfg.counts.numvmidc.val ∧
    plainCount ((trcidr4 cfg).extractLsb' 24 4) = some cfg.counts.numcidc.val ∧
    plainCount ((trcidr4 cfg).extractLsb' 20 4) = some cfg.counts.numsscc.val ∧
    plainCount ((trcidr4 cfg).extractLsb' 12 4) = some cfg.counts.numpc.val ∧
    plainCount ((trcidr4 cfg).extractLsb' 0 4) = some cfg.counts.numacpairs.val) ∧
  (∀ f : BitVec 4, ∀ n : Nat, plainCount f = some n ↔ n = f.toNat ∧ n ≤ 8)

/-- R19 (for the RES0 case the spec's reading is decision D3): bit [8] is named SUPPDAC exactly when NUMACPAIRS is not zero, and
reads as 0 under either name. -/
def Obligations.BitEightIsNamedByNumacpairs : Prop :=
  ∀ cfg : Cfg, (bit8Name (trcidr4 cfg) = .suppdac ↔ cfg.counts.numacpairs ≠ 0) ∧
    (bit8Name (trcidr4 cfg) = .res0 ↔ cfg.counts.numacpairs = 0) ∧ suppdacOf (trcidr4 cfg) = 0#1

/-- R20: NUMDVC, bits [7:4], is the constant 0b0000 in this hardware, no other value ever appears there, and its count is zero. -/
def Obligations.NumdvcIsZeroAndCountsNone : Prop :=
  (∀ cfg : Cfg, (trcidr4 cfg).extractLsb' 4 4 = 0b0000#4 ∧ dvcCount (numdvcOf (trcidr4 cfg)) = some 0) ∧
  (∀ f : BitVec 4, (∃ cfg : Cfg, numdvcOf (trcidr4 cfg) = f) ↔ f = 0b0000#4) ∧
  (∀ (f : BitVec 4) (n : Nat), dvcCount f = some n → n = 0)

/-! ## Reading the register (40_sysreg_access.md) -/

/-- R69, R74, R76 and R78, under the preconditions of R111: the read answers the state in which X<t> holds the 64-bit value and
nothing else has changed; for t = 31 nothing at all has changed. (That the value lands in X<t> is decision D6.) -/
def Obligations.PermittedReadWritesTheValue : Prop :=
  ∀ (s : State) (t : RegNum), ReadPermitted s.cfg s.ctx →
    ∃ s', exec (.mrsTrcidr4 t) s = .next s' ∧
      (t ≠ 31#5 → s'.readX t = trcidr4 s.cfg) ∧ (t = 31#5 → s' = s) ∧
      (∀ u : RegNum, u ≠ t → s'.readX u = s.readX u) ∧
      s'.cfg = s.cfg ∧ s'.ctx = s.ctx ∧ s'.extData = s.extData ∧ s'.pending = s.pending

/-- R111: a read answers a next state if and only if its preconditions hold. The spec's own derivation. -/
def Obligations.ReadSucceedsExactlyWhenPermitted : Prop :=
  ∀ (s : State) (t : RegNum), (∃ s', exec (.mrsTrcidr4 t) s = .next s') ↔ ReadPermitted s.cfg s.ctx

/-- The value a successful read leaves in X<t>: zero in bits [63:32] (R12), [11:9] (R18), [8] (R19) and [7:4] (R20), whatever
NUMACPAIRS is. For R12 and R18 the spec's reading of RES0 is decision D3. -/
def Obligations.ReadReturnsZeroInReservedFields : Prop :=
  ∀ (s s' : State) (t : RegNum), exec (.mrsTrcidr4 t) s = .next s' →
    (s'.readX t).extractLsb' 32 32 = 0#32 ∧ (s'.readX t).extractLsb' 9 3 = 0#3 ∧
    suppdacOf (s'.readX t) = 0#1 ∧ numdvcOf (s'.readX t) = 0#4

/-- R61 (its place before the chain is decision D5): with the register absent the read is Undefined at every Exception level,
whatever the controls say. -/
def Obligations.AbsentRegisterIsUndefined : Prop :=
  ∀ (s : State) (t : RegNum), s.cfg.eteImplemented = false →
    exec (.mrsTrcidr4 t) s = .fault (.undefined (.mrsTrcidr4 t))

/-- R62: at EL0 the read is Undefined, and no control changes that. -/
def Obligations.ReadAtEl0IsUndefined : Prop :=
  ∀ (s : State) (t : RegNum), s.ctx.el = .el0 →
    exec (.mrsTrcidr4 t) s = .fault (.undefined (.mrsTrcidr4 t))

/-- R62, R63, R67, R70 and R72: where the register is present the read is Undefined exactly at EL0; at EL1 where Debug state
with SDD hides the EL3 trap and either that outranks the other traps or no trap to EL1 or EL2 applies; and at EL2
likewise. -/
def Obligations.PresentRegisterIsUndefinedExactlyThere : Prop :=
  ∀ (s : State) (t : RegNum), s.cfg.eteImplemented = true →
    (exec (.mrsTrcidr4 t) s = .fault (.undefined (.mrsTrcidr4 t)) ↔
      s.ctx.el = .el0 ∨
      (s.ctx.el = .el1 ∧ debugHidesEl3Trap s.cfg s.ctx ∧
        (s.cfg.el3TrapPriorityWhenSdd = true ∨ s.ctx.cpacrTta = false ∧ ¬ el2StopsEl1 s.cfg s.ctx)) ∨
      (s.ctx.el = .el2 ∧ debugHidesEl3Trap s.cfg s.ctx ∧
        (s.cfg.el3TrapPriorityWhenSdd = true ∨ s.ctx.cptrEl2Tta = false)))

/-- R64: where the register is present the read traps to EL1 with code 0x18 exactly at EL1 with `CPACR_EL1.TTA` set, R63's
condition being false. -/
def Obligations.TrapToEl1ExactlyByCpacr : Prop :=
  ∀ (s : State) (t : RegNum), s.cfg.eteImplemented = true →
    (exec (.mrsTrcidr4 t) s = .fault (.systemAccessTrap .el1 0x18#6 (.mrsTrcidr4 t)) ↔
      s.ctx.el = .el1 ∧ ¬ debugOutranks s.cfg s.ctx ∧ s.ctx.cpacrTta = true)

/-- R65, R66 and R71: where the register is present the read traps to EL2 with code 0x18 exactly at EL1, where no earlier
condition holds and EL2 stops it coarsely or by the fine-grained trap; and at EL2 with `CPTR_EL2.TTA` set, R70's condition
being false. -/
def Obligations.TrapToEl2ExactlyByItsControls : Prop :=
  ∀ (s : State) (t : RegNum), s.cfg.eteImplemented = true →
    (exec (.mrsTrcidr4 t) s = .fault (.systemAccessTrap .el2 0x18#6 (.mrsTrcidr4 t)) ↔
      ¬ debugOutranks s.cfg s.ctx ∧
        (s.ctx.el = .el1 ∧ s.ctx.cpacrTta = false ∧ el2StopsEl1 s.cfg s.ctx ∨ s.ctx.el = .el2 ∧ s.ctx.cptrEl2Tta = true))

/-- R68, R73 and R75: where the register is present the read traps to EL3 with code 0x18 exactly at EL1 and EL2, where no trap
to a lower level applies, EL3 is implemented and using AArch64 with `CPTR_EL3.TTA` set, and not in Debug state with SDD; and
at EL3 with `CPTR_EL3.TTA` set, whatever else holds. -/
def Obligations.TrapToEl3ExactlyByItsControl : Prop :=
  ∀ (s : State) (t : RegNum), s.cfg.eteImplemented = true →
    (exec (.mrsTrcidr4 t) s = .fault (.systemAccessTrap .el3 0x18#6 (.mrsTrcidr4 t)) ↔
      (s.ctx.el = .el1 ∧ s.ctx.cpacrTta = false ∧ ¬ el2StopsEl1 s.cfg s.ctx ∧ el3Stops s.cfg s.ctx ∧
        ¬ (s.ctx.halted = true ∧ s.ctx.sdd = true)) ∨
      (s.ctx.el = .el2 ∧ s.ctx.cptrEl2Tta = false ∧ el3Stops s.cfg s.ctx ∧ ¬ (s.ctx.halted = true ∧ s.ctx.sdd = true)) ∨
      (s.ctx.el = .el3 ∧ s.ctx.cptrEl3Tta = true))

/-- R90: the read ends in exactly one of five outcomes and in no other: the value, Undefined, or a trap with code 0x18 to EL1,
EL2 or EL3; it is never refused. -/
def Obligations.ReadEndsInOneOfFiveOutcomes : Prop :=
  ∀ (s : State) (t : RegNum),
    exec (.mrsTrcidr4 t) s = .next (s.writeX t (trcidr4 s.cfg)) ∨
    exec (.mrsTrcidr4 t) s = .fault (.undefined (.mrsTrcidr4 t)) ∨
    exec (.mrsTrcidr4 t) s = .fault (.systemAccessTrap .el1 0x18#6 (.mrsTrcidr4 t)) ∨
    exec (.mrsTrcidr4 t) s = .fault (.systemAccessTrap .el2 0x18#6 (.mrsTrcidr4 t)) ∨
    exec (.mrsTrcidr4 t) s = .fault (.systemAccessTrap .el3 0x18#6 (.mrsTrcidr4 t))

/-- R81 (decision D8): the write form is Undefined at every Exception level, for every configuration and context, and every
register number; the trap chain is not applied to it. -/
def Obligations.WriteFormIsUndefined : Prop :=
  ∀ (s : State) (t : RegNum), exec (.msrTrcidr4 t) s = .fault (.undefined (.msrTrcidr4 t))

/-- The frame of both instructions (R31, R78, R79): where one answers a next state, every general register but its destination
keeps its value, and so do the configuration, the context inputs (`PSTATE.EL` among them), the External reader's word and
the accesses still to be made. There is no flag and no memory. -/
def Obligations.InstructionsWriteOnlyTheirDestination : Prop :=
  ∀ (i : Instr) (s s' : State), exec i s = .next s' →
    (∀ u : RegNum, u ≠ i.rt → s'.readX u = s.readX u) ∧
    s'.cfg = s.cfg ∧ s'.ctx = s.ctx ∧ s'.extData = s.extData ∧ s'.pending = s.pending

/-- R80: the outcome depends on the configuration and the context and on nothing else, in particular not on the register
number, the registers, the External reader's word or the accesses to come: two reads that agree on both succeed together and
then read the same value, are Undefined together, and trap together to the same level with the same code. The spec's own
derivation. -/
def Obligations.OutcomeIgnoresEverythingButCfgAndCtx : Prop :=
  ∀ (s1 s2 : State) (t u : RegNum), s1.cfg = s2.cfg → s1.ctx = s2.ctx →
    ((∃ s', exec (.mrsTrcidr4 t) s1 = .next s') ↔ ∃ s', exec (.mrsTrcidr4 u) s2 = .next s') ∧
    (∀ s1' s2' : State, exec (.mrsTrcidr4 t) s1 = .next s1' → exec (.mrsTrcidr4 u) s2 = .next s2' →
      t ≠ 31#5 → u ≠ 31#5 → s1'.readX t = s2'.readX u) ∧
    (exec (.mrsTrcidr4 t) s1 = .fault (.undefined (.mrsTrcidr4 t)) ↔
      exec (.mrsTrcidr4 u) s2 = .fault (.undefined (.mrsTrcidr4 u))) ∧
    (∀ (target : TrapTarget) (ec : BitVec 6),
      exec (.mrsTrcidr4 t) s1 = .fault (.systemAccessTrap target ec (.mrsTrcidr4 t)) ↔
        exec (.mrsTrcidr4 u) s2 = .fault (.systemAccessTrap target ec (.mrsTrcidr4 u)))

/-- R80 and R24: after a successful read a second one, into any register (the same one too), succeeds under the same context; it
reads the value the first one read, and the two registers then hold equal values. The spec's own derivation. -/
def Obligations.RepeatedReadsAgree : Prop :=
  ∀ (s s1 : State) (t u : RegNum), exec (.mrsTrcidr4 t) s = .next s1 →
    ∃ s2, exec (.mrsTrcidr4 u) s1 = .next s2 ∧
      (t ≠ 31#5 → u ≠ 31#5 → s2.readX u = s1.readX t ∧ s2.readX t = s2.readX u)

/-- R84 item 6: a trap to EL1 arises only at EL1, to EL2 only at EL1 or EL2, to EL3 only at EL1, EL2 or EL3, and the code is
always 0x18. The spec's own derivation. -/
def Obligations.TrapNeverTargetsALowerLevel : Prop :=
  ∀ (s : State) (t : RegNum) (target : TrapTarget) (ec : BitVec 6) (i : Instr),
    exec (.mrsTrcidr4 t) s = .fault (.systemAccessTrap target ec i) →
      ec = 0x18#6 ∧ i = .mrsTrcidr4 t ∧
        match target with
        | .el1 => s.ctx.el = .el1
        | .el2 => s.ctx.el = .el1 ∨ s.ctx.el = .el2
        | .el3 => s.ctx.el = .el1 ∨ s.ctx.el = .el2 ∨ s.ctx.el = .el3

/-- R69 (its derived part): Debug state, `EDSCR.SDD` and the implementation's priority Boolean never decide between success and
failure of a read. -/
def Obligations.DebugStateNeverDecidesSuccess : Prop :=
  ∀ (cfg : Cfg) (c : Ctx) (halted sdd prio : Bool),
    access cfg c = .value (trcidr4 cfg) ↔
      access { cfg with el3TrapPriorityWhenSdd := prio } { c with halted := halted, sdd := sdd } = .value (trcidr4 cfg)

/-- R100: unless the access is made at EL1 or EL2, EL3 would trap it, and `EDSCR.SDD` is set, the outcome in Debug state equals
the outcome outside it. The spec's own derivation. -/
def Obligations.DebugStateMattersInOneSituationOnly : Prop :=
  ∀ (cfg : Cfg) (c : Ctx), ¬ ((c.el = .el1 ∨ c.el = .el2) ∧ el3Stops cfg c ∧ c.sdd = true) →
    access cfg { c with halted := true } = access cfg { c with halted := false }

/-- R84 item 3: outside Debug state `EDSCR.SDD` and the priority Boolean do not affect the outcome, and the only Undefined
outcomes are the absent register's and EL0's. The spec's own derivation. -/
def Obligations.OutsideDebugStateOnlyAbsenceAndEl0AreUndefined : Prop :=
  ∀ (cfg : Cfg) (c : Ctx), c.halted = false →
    (∀ sdd prio : Bool, access { cfg with el3TrapPriorityWhenSdd := prio } { c with sdd := sdd } = access cfg c) ∧
    (access cfg c = .undefined ↔ cfg.eteImplemented = false ∨ c.el = .el0)

/-- R84 item 1: without EL3 the outcome at EL1 is a trap to EL1 by `CPACR_EL1.TTA`, else a trap to EL2 where EL2 is enabled and
using AArch64 and either control is set, else the value; at EL2 a trap to EL2 by `CPTR_EL2.TTA`, else the value; and
`SCR_EL3.FGTEn` is never read. The spec's own derivation. -/
def Obligations.WithoutEl3TheChainReduces : Prop :=
  ∀ (cfg : Cfg) (c : Ctx), cfg.eteImplemented = true → cfg.haveEL3 = false →
    (c.el = .el1 → access cfg c =
      if c.cpacrTta then .trap .el1 0x18#6
      else if c.el2Enabled ∧ c.el2IsA32 = false ∧ (c.cptrEl2Tta ∨ c.hdfgrtrTrcid) then .trap .el2 0x18#6
      else .value (trcidr4 cfg)) ∧
    (c.el = .el2 → access cfg c = if c.cptrEl2Tta then .trap .el2 0x18#6 else .value (trcidr4 cfg)) ∧
    (∀ b : Bool, access cfg { c with fgtEn := b } = access cfg c)

/-- R84 items 2, 4 and 5: with EL2 not enabled no read from EL1 traps to EL2; with `CPTR_EL3.TTA` clear no read traps to EL3 and
neither Debug state, `EDSCR.SDD`, the priority Boolean nor EL3's execution state affects the outcome; and with all four
controls clear and the register present every read from EL1, EL2 and EL3 gives the value. The spec's own derivation. -/
def Obligations.ClearControlsRemoveTheirArms : Prop :=
  ∀ (cfg : Cfg) (c : Ctx),
    (c.el2Enabled = false → c.el = .el1 → access cfg c ≠ .trap .el2 0x18#6) ∧
    (c.cptrEl3Tta = false →
      access cfg c ≠ .trap .el3 0x18#6 ∧
      ∀ halted sdd el3IsA32 prio : Bool,
        access { cfg with el3TrapPriorityWhenSdd := prio }
          { c with halted := halted, sdd := sdd, el3IsA32 := el3IsA32 } = access cfg c) ∧
    (cfg.eteImplemented = true → c.cpacrTta = false → c.cptrEl2Tta = false → c.cptrEl3Tta = false →
      c.hdfgrtrTrcid = false → access cfg c = if c.el = .el0 then .undefined else .value (trcidr4 cfg))

/-! ## Encoding (30_encoding.md) -/

/-- R50 and R51: the access is a read of TRCIDR4 exactly when it is a read and its five numbers are (2, 1, 0, 12, 7). -/
def Obligations.ReadOfTheRegisterIsTheFiveNumbers : Prop :=
  ∀ (a : SysRegAccess) (t : RegNum),
    decodeAccess a = .ok (.mrsTrcidr4 t) ↔
      a.read = true ∧ a.op0.toNat = 2 ∧ a.op1.toNat = 1 ∧ a.crn.toNat = 0 ∧ a.crm.toNat = 12 ∧ a.op2.toNat = 7 ∧ a.t = t

/-- R57 (decision D1): the decoder at the source's level answers a read, a write (R55) or NotThisRegister, the last exactly
where the five numbers differ in some bit. -/
def Obligations.EverythingElseIsNotThisRegister : Prop :=
  ∀ a : SysRegAccess,
    (decodeAccess a = .error (.notThisRegister a) ↔ { a with t := 0 } ≠ trcidr4Access a.read 0) ∧
    (decodeAccess a = .ok (.mrsTrcidr4 a.t) ∨ decodeAccess a = .ok (.msrTrcidr4 a.t) ∨
      decodeAccess a = .error (.notThisRegister a))

/-- Decode and encode agree on words, both ways, and on bytes: no bit of an encoding is dropped, and no other word is an
instruction. The word's layout (R52, R55) is PRESUMED, log entry 6. -/
def Obligations.DecodeAndEncodeAgree : Prop :=
  (∀ i : Instr, decodeWord (encode i) = .ok i) ∧
  (∀ (w : Word) (i : Instr), decodeWord w = .ok i → encode i = w) ∧
  (∀ (i : Instr) (rest : List Byte), decodeBytes (encodeBytes i ++ rest) = .ok (i, rest))

/-- R52 and R55: a word is the read form exactly when it matches 0xD5310CE0 under the mask 0xFFFFFFE0, and the write form exactly
when it matches 0xD5110CE0; bits [4:0] are then the register number. The layout is PRESUMED, log entry 6. -/
def Obligations.WordsMatchTheOpcodeTable : Prop :=
  ∀ w : Word,
    (∀ t : RegNum, decodeWord w = .ok (.mrsTrcidr4 t) ↔ w &&& 0xFFFFFFE0#32 = 0xD5310CE0#32 ∧ w.extractLsb' 0 5 = t) ∧
    (∀ t : RegNum, decodeWord w = .ok (.msrTrcidr4 t) ↔ w &&& 0xFFFFFFE0#32 = 0xD5110CE0#32 ∧ w.extractLsb' 0 5 = t)

/-- Words written out from R52's table (95_test_vectors.md section 4): MRS X0, MRS X30, MRS XZR, the write form, and a word whose
op2 differs (E5). The layout is PRESUMED, log entry 6. -/
def Obligations.SampleWordsDecode : Prop :=
  decodeWord 0b11010101001100010000110011100000#32 = .ok (.mrsTrcidr4 0) ∧
  decodeWord 0b11010101001100010000110011111110#32 = .ok (.mrsTrcidr4 30) ∧
  decodeWord 0b11010101001100010000110011111111#32 = .ok (.mrsTrcidr4 31) ∧
  decodeWord 0b11010101000100010000110011100000#32 = .ok (.msrTrcidr4 0) ∧
  decodeWord 0b11010101001100010000110011000000#32 =
    .error (.notThisRegister { trcidr4Access true 0 with op2 := 0b110#3 })

/-! ## Steps and runs (70_reset_and_hazards.md R116, 20_memory.md) -/

/-- A step runs the decoded instruction: where the next access of the run decodes to `i`, as a word or as a decoded access, the
step is `exec i` with that access taken off the list and its context in force. -/
def Obligations.StepRunsTheDecodedInstruction : Prop :=
  ∀ (s : State) (ctx : Ctx) (rest : List Request) (i : Instr),
    (∀ w, s.pending = .word ctx w :: rest → decodeWord w = .ok i →
      step s = exec i { s with ctx := ctx, pending := rest }) ∧
    (∀ a, s.pending = .access ctx a :: rest → decodeAccess a = .ok i →
      step s = exec i { s with ctx := ctx, pending := rest })

/-- The other accesses of a run: one that decodes to no instruction is refused by name (R57), an external write is refused (R42,
decision D12), and a run with no access left is complete (log entry 1). That such an access stops the run is the model's choice
(log entry 21). -/
def Obligations.StepRefusesEverythingElseByName : Prop :=
  ∀ (s : State) (ctx : Ctx) (rest : List Request) (e : Reject),
    (∀ w, s.pending = .word ctx w :: rest → decodeWord w = .error e → step s = .refused (.notThisHardware e)) ∧
    (∀ a, s.pending = .access ctx a :: rest → decodeAccess a = .error e → step s = .refused (.notThisHardware e)) ∧
    (∀ v, s.pending = .extWrite v :: rest → step s = .refused .externalWriteRefused) ∧
    (s.pending = [] → step s = .refused .noAccessLeft)

/-- R41 and R83 (decision D12): an external read where the register is present and the access permitted gives its reader bits
[31:0] of the value, whatever the context inputs are, and changes nothing of the hardware; otherwise it is refused. -/
def Obligations.ExternalReadGivesTheLowWord : Prop :=
  ∀ (s : State) (extOk : Bool) (rest : List Request), s.pending = .extRead extOk :: rest →
    step s =
      if s.cfg.eteImplemented = true ∧ extOk = true then
        .next { s with extData := some ((trcidr4 s.cfg).extractLsb' 0 32), pending := rest }
      else .refused .externalReadRefused

/-- R41 and R44 (decision D12): in `MemRead` notation the external read is served exactly at the register's one address, at
width 4, aligned, where permitted and present; anything else is refused. That the address is an unbounded natural number, so
that `base + offset` never wraps, is no rule's: it is the model's choice (log entry 20, DESIGN CHOICE, unsafe). -/
def Obligations.MemReadIsServedAtOneAddressAndWidth : Prop :=
  ∀ (s : State) (base addr n : Nat) (permitted : Bool) (rest : List Request),
    s.pending = .extMemRead base addr n permitted :: rest →
    step s =
      if s.cfg.eteImplemented = true ∧ permitted = true ∧ addr = base + s.cfg.trcidr4ExtOffset ∧ n = 4 ∧ 4 ∣ addr then
        .next { s with extData := some ((trcidr4 s.cfg).extractLsb' 0 32), pending := rest }
      else .refused .externalReadRefused

/-- R83: an external read, in either of its forms, and an MRS, under any context, that both succeed agree on bits [31:0], at any
time and in any order: whichever is first, with any number `n` of completed accesses between them, the word the External
reader received is the low word of what the MRS wrote. The spec's own derivation. -/
def Obligations.ExternalAndDirectReadsAgree : Prop :=
  ∀ (s s1 s2 s3 : State) (n : Nat) (q : Request) (rest : List Request) (t : RegNum),
    q.isExternalRead = true → t ≠ 31#5 →
    (s.pending = q :: rest → step s = .next s1 → core.run n s1 = .next s2 →
      ∀ ctx : Ctx, exec (.mrsTrcidr4 t) { s2 with ctx := ctx } = .next s3 →
        s1.extData = some ((s3.readX t).extractLsb' 0 32)) ∧
    (exec (.mrsTrcidr4 t) s = .next s1 → core.run n s1 = .next s2 → s2.pending = q :: rest → step s2 = .next s3 →
      s3.extData = some ((s1.readX t).extractLsb' 0 32))

/-- R115: the two agents do not interact. A permitted read and a permitted external read end in the same state in either
order. The spec's own derivation. -/
def Obligations.OrderOfTheTwoAgentsIsNotObservable : Prop :=
  ∀ (s : State) (ctx : Ctx) (t : RegNum) (rest : List Request), ReadPermitted s.cfg ctx →
    ∃ s', runFor 2 { s with pending := .word ctx (encode (.mrsTrcidr4 t)) :: .extRead true :: rest } = .final s' ∧
      runFor 2 { s with pending := .extRead true :: .word ctx (encode (.mrsTrcidr4 t)) :: rest } = .final s'

/-- The state after reset, for every configuration and context: the register has the value of R22 (R26, R110, decision D14);
and, the model's choice (log entries 1, 4 and 5), every general register is zero, nothing has been received and no access
is pending. The invariant of runs holds there. -/
def Obligations.ResetLeavesTheConstantValue : Prop :=
  ∀ (cfg : Cfg) (ctx : Ctx),
    trcidr4 (State.resetWith cfg ctx).cfg = trcidr4 cfg ∧
    (∀ t : RegNum, (State.resetWith cfg ctx).readX t = 0#64) ∧
    (State.resetWith cfg ctx).extData = none ∧ (State.resetWith cfg ctx).pending = [] ∧
    ReachedFrom (State.resetWith cfg ctx) (State.resetWith cfg ctx)

/-- R24 and R79, as an invariant every step keeps: whatever is accessed, the configuration and so the value of the register stay
the same, every general register holds what it held or that value, and the External reader holds what it held or its low
word; and a step takes exactly one access off the list. -/
def Obligations.StepKeepsTheRegisterConstant : Prop :=
  ∀ s0 s s' : State, ReachedFrom s0 s → step s = .next s' → ReachedFrom s0 s' ∧ s'.pending = s.pending.tail

/-- R24 over runs: after any number of accesses from any state the register has the value it had, and every general register
and the External reader hold what they held or that value; and each access took one entry off the list, so a run cannot be
longer than its list (R116; that external accesses stand in the list is the model's choice, log entry 21). -/
def Obligations.RunsNeverChangeTheRegister : Prop :=
  ∀ (n : Nat) (s s' : State), core.run n s = .next s' →
    ReachedFrom s s' ∧ n ≤ s.pending.length ∧ s'.pending = s.pending.drop n

/-- The run of all accesses of a state ends in one of three ways, two of them R116's (decision D26). Final: every access
completed, and the end state is that of all the steps. Faulted: the accesses before it completed, the state is the one they
left, unchanged by the failing access (R79), nothing after it was executed, and the last outcome is the failing one. The
third way, refused, at an access the spec gives no meaning, and that a served external read counts as completing, are the
model's choice and no rule's (log entry 21, DESIGN CHOICE). -/
def Obligations.RunEndsAtTheFirstAccessThatFails : Prop :=
  ∀ s : State,
    match run s with
    | .final s' =>
      core.run s.pending.length s = .next s' ∧ s'.pending = [] ∧
        (outcomes s).length = s.pending.length ∧ ∀ o ∈ outcomes s, o.completes = true
    | .faulted s' f =>
      step s' = .fault f ∧ ∃ (k : Nat) (o : AccessOutcome), k < s.pending.length ∧ core.run k s = .next s' ∧
        outcomes s = (outcomes s).take k ++ [.direct o] ∧ (outcomes s).length = k + 1 ∧
        (∀ p ∈ (outcomes s).take k, p.completes = true) ∧
        ((o = .undefined ∧ ∃ i, f = .undefined i) ∨ ∃ target i, o = .trap target 0x18#6 ∧ f = .systemAccessTrap target 0x18#6 i)
    | .refused s' r =>
      step s' = .refused r ∧ ∃ k : Nat, k < s.pending.length ∧ core.run k s = .next s' ∧
        (outcomes s).length = k ∧ ∀ p ∈ outcomes s, p.completes = true
end

