-- ==== Sys2Proof/Laws/State.lean ====
section
/-! SUPPORT. The small lemmas of the state: what each update leaves in each field, and reading a register after writing one. -/

namespace Sys2Proof.Machine

variable (s : State) (t u : RegNum) (v : XWord)

@[simp] theorem State.writeX_cfg : (s.writeX t v).cfg = s.cfg := by unfold State.writeX; split <;> rfl
@[simp] theorem State.writeX_ctx : (s.writeX t v).ctx = s.ctx := by unfold State.writeX; split <;> rfl
@[simp] theorem State.writeX_extData : (s.writeX t v).extData = s.extData := by unfold State.writeX; split <;> rfl
@[simp] theorem State.writeX_pending : (s.writeX t v).pending = s.pending := by unfold State.writeX; split <;> rfl

/-- The zero register discards what is written to it. -/
@[simp] theorem State.writeX_xzr : s.writeX 31#5 v = s := rfl

/-- The zero register reads as zero. -/
@[simp] theorem State.readX_xzr : s.readX 31#5 = 0#64 := rfl

/-- The register written holds what was written, but for the zero register. -/
theorem State.readX_writeX_self (h : t ≠ 31#5) : (s.writeX t v).readX t = v := by
  have ht : t.toNat < 31 := by
    have := t.isLt
    have : t.toNat ≠ 31 := fun e => h (BitVec.eq_of_toNat_eq e)
    omega
  simp [State.readX, State.writeX, ht]

/-- Every other register keeps its value. -/
theorem State.readX_writeX_ne (h : u ≠ t) : (s.writeX t v).readX u = s.readX u := by
  have hne : t.toNat ≠ u.toNat := fun e => h (BitVec.eq_of_toNat_eq e.symm)
  unfold State.readX State.writeX
  split
  · split
    · simp [hne]
    · rfl
  · rfl

@[simp] theorem deliverExternal_cfg (w : Word) : (deliverExternal w s).cfg = s.cfg := rfl
@[simp] theorem deliverExternal_ctx (w : Word) : (deliverExternal w s).ctx = s.ctx := rfl
@[simp] theorem deliverExternal_pending (w : Word) : (deliverExternal w s).pending = s.pending := rfl
@[simp] theorem deliverExternal_extData (w : Word) : (deliverExternal w s).extData = some w := rfl
@[simp] theorem deliverExternal_readX (w : Word) : (deliverExternal w s).readX t = s.readX t := rfl

@[simp] theorem State.withFetchWord_cfg (n w : Nat) : (s.withFetchWord n w).cfg = s.cfg := rfl
@[simp] theorem State.withFetchWord_ctx (n w : Nat) : (s.withFetchWord n w).ctx = s.ctx := rfl
@[simp] theorem State.withFetchWord_readX (n w : Nat) : (s.withFetchWord n w).readX t = s.readX t := rfl

/-- A field update other than of the registers leaves every register. -/
@[simp] theorem State.readX_update (c : Ctx) (p : List Request) :
    State.readX { s with ctx := c, pending := p } t = s.readX t := rfl

end Sys2Proof.Machine
end

