-- ==== Sys2Proof/Laws/Ops.lean ====
section
/-! SUPPORT. One lemma per shared operation: everything it can do. -/

namespace Sys2Proof.Machine

/-- `conclude` answers a next state exactly for a value, and then it is the register write. -/
theorem conclude_next {i : Instr} {o : AccessOutcome} {s s' : State} (h : conclude i o s = .next s') :
    ∃ v, o = .value v ∧ s' = s.writeX i.rt v := by
  cases o with
  | value v => exact ⟨v, rfl, by simpa [conclude] using h.symm⟩
  | undefined => simp [conclude, raiseUndefined] at h
  | trap target ec => simp [conclude, raiseSystemAccessTrap] at h

/-- `conclude` never refuses. -/
theorem conclude_not_refused {i : Instr} {o : AccessOutcome} {s : State} {r : Refusal} : conclude i o s ≠ .refused r := by
  cases o <;> simp [conclude, raiseUndefined, raiseSystemAccessTrap]

/-- `ExtRead` answers only where the register is present and the access permitted, and then bits [31:0]. -/
theorem extRead_some {cfg : Cfg} {ok : Bool} {w : Word} (h : extRead cfg ok = some w) :
    cfg.eteImplemented = true ∧ ok = true ∧ w = trcidr4Ext cfg := by
  unfold extRead at h
  split at h
  · rename_i hc
    rw [Bool.and_eq_true] at hc
    exact ⟨hc.1, hc.2, (Option.some.inj h).symm⟩
  · cases h

/-- A value outcome of the chain is the register's value, and the register is present. -/
theorem access_value {cfg : Cfg} {c : Ctx} {v : XWord} (h : access cfg c = .value v) :
    cfg.eteImplemented = true ∧ v = trcidr4 cfg := by
  have hv : ∀ a : Arm, a.outcome cfg = .value v → v = trcidr4 cfg := by
    intro a ha
    cases a <;> simp [Arm.outcome] at ha <;> exact ha.symm
  refine ⟨?_, hv _ h⟩
  by_contra hc
  unfold access arm at h
  rw [if_neg hc] at h
  cases h

/-- What `fetch` answers when the PE executes an instruction. -/
theorem fetch_run {s s' : State} {i : Instr} (h : fetch s = .run i s') :
    ∃ ctx rest, s' = { s with ctx := ctx, pending := rest } ∧
      ((∃ a, s.pending = .access ctx a :: rest ∧ decodeAccess a = .ok i) ∨
       (∃ w, s.pending = .word ctx w :: rest ∧ decodeWord w = .ok i)) := by
  unfold fetch at h
  split at h
  · cases h
  · rename_i ctx a rest hp
    cases hd : decodeAccess a with
    | ok j =>
      simp only [fetchInstr, hd, Fetched.run.injEq] at h
      exact ⟨ctx, rest, h.2.symm, .inl ⟨a, hp, by rw [hd, h.1]⟩⟩
    | error e => simp [fetchInstr, hd] at h
  · rename_i ctx w rest hp
    cases hd : decodeWord w with
    | ok j =>
      simp only [fetchInstr, hd, Fetched.run.injEq] at h
      exact ⟨ctx, rest, h.2.symm, .inr ⟨w, hp, by rw [hd, h.1]⟩⟩
    | error e => simp [fetchInstr, hd] at h
  · rename_i ok rest hp
    cases hd : extRead s.cfg ok <;> simp [fetchExternal, hd] at h
  · rename_i b a n p rest hp
    cases hd : extMemRead s.cfg b a n p <;> simp [fetchExternal, hd] at h
  · cases h

/-- What `fetch` answers when the External reader receives a word. -/
theorem fetch_external {s s' : State} {v : Word} (h : fetch s = .external v s') :
    s.cfg.eteImplemented = true ∧ v = trcidr4Ext s.cfg ∧ ∃ q rest, s.pending = q :: rest ∧ s' = { s with pending := rest } := by
  unfold fetch at h
  split at h
  · cases h
  · rename_i ctx a rest hp
    cases hd : decodeAccess a <;> simp [fetchInstr, hd] at h
  · rename_i ctx w rest hp
    cases hd : decodeWord w <;> simp [fetchInstr, hd] at h
  · rename_i ok rest hp
    cases hd : extRead s.cfg ok with
    | none => simp [fetchExternal, hd] at h
    | some w =>
      simp only [fetchExternal, hd, Fetched.external.injEq] at h
      have hw := extRead_some hd
      exact ⟨hw.1, h.1 ▸ hw.2.2, _, rest, hp, h.2.symm⟩
  · rename_i b a n p rest hp
    cases hd : extMemRead s.cfg b a n p with
    | none => simp [fetchExternal, hd] at h
    | some w =>
      simp only [fetchExternal, hd, Fetched.external.injEq] at h
      have hw := extRead_some hd
      exact ⟨hw.1, h.1 ▸ hw.2.2, _, rest, hp, h.2.symm⟩
  · cases h

/-- Everything a step that completes can do: an instruction's value lands in its register, or the External reader receives
its word. -/
theorem step_next {s s' : State} (h : step s = .next s') :
    (∃ i s1 v, fetch s = .run i s1 ∧ exec i s1 = .next s' ∧ access s1.cfg s1.ctx = .value v ∧ s' = s1.writeX i.rt v) ∨
    (∃ w s1, fetch s = .external w s1 ∧ s' = deliverExternal w s1) := by
  unfold step at h
  split at h
  · rename_i i s1 hf
    cases i with
    | mrsTrcidr4 t =>
      obtain ⟨v, hv, hs⟩ := conclude_next h
      exact .inl ⟨_, s1, v, hf, h, hv, hs⟩
    | msrTrcidr4 t =>
      obtain ⟨v, hv, -⟩ := conclude_next (s := s1) (i := .msrTrcidr4 t) (o := writeAccess) h
      simp [writeAccess] at hv
  · rename_i w s1 hf
    exact .inr ⟨w, s1, hf, (Host.Outcome.next.inj h).symm⟩
  · cases h

end Sys2Proof.Machine
end

