-- ==== Sys2Proof/Laws/Access.lean ====
section
/-! SUPPORT. What each arm of the chain answers, and what an instruction makes of it: one inversion per kind of outcome. -/

namespace Sys2Proof.Machine

/-- The three arms that answer the value (R69, R74, R76). -/
theorem outcome_value_iff (cfg : Cfg) (a : Arm) (v : XWord) :
    a.outcome cfg = .value v ↔ (a = .el1Value ∨ a = .el2Value ∨ a = .el3Value) ∧ trcidr4 cfg = v := by
  cases a <;> simp [Arm.outcome]

/-- The arms that answer `Undefined` (60_exceptions.md R91). -/
theorem outcome_undefined_iff (cfg : Cfg) (a : Arm) :
    a.outcome cfg = .undefined ↔
      a = .absent ∨ a = .el0 ∨ a = .el1SddPrioritised ∨ a = .el1Sdd ∨ a = .el2SddPrioritised ∨ a = .el2Sdd := by
  cases a <;> simp [Arm.outcome]

/-- The arms that answer a trap (60_exceptions.md R92). -/
theorem outcome_trap_iff (cfg : Cfg) (a : Arm) (target : TrapTarget) (ec : BitVec 6) :
    a.outcome cfg = .trap target ec ↔ trapEc = ec ∧
      match target with
      | .el1 => a = .el1CpacrTta
      | .el2 => a = .el1CptrEl2Tta ∨ a = .el1FineGrained ∨ a = .el2CptrEl2Tta
      | .el3 => a = .el1CptrEl3Tta ∨ a = .el2CptrEl3Tta ∨ a = .el3CptrEl3Tta := by
  cases a <;> cases target <;> simp [Arm.outcome]

/-- A read raises `Undefined` exactly where the chain answers it. -/
theorem execMrs_undefined_iff (t : RegNum) (s : State) :
    execMrsTrcidr4 t s = .fault (.undefined (.mrsTrcidr4 t)) ↔ access s.cfg s.ctx = .undefined := by
  unfold execMrsTrcidr4
  cases access s.cfg s.ctx <;> simp [conclude, raiseUndefined, raiseSystemAccessTrap]

/-- A read raises a trap exactly where the chain answers it. -/
theorem execMrs_trap_iff (t : RegNum) (s : State) (target : TrapTarget) (ec : BitVec 6) :
    execMrsTrcidr4 t s = .fault (.systemAccessTrap target ec (.mrsTrcidr4 t)) ↔ access s.cfg s.ctx = .trap target ec := by
  unfold execMrsTrcidr4
  cases access s.cfg s.ctx <;> simp [conclude, raiseUndefined, raiseSystemAccessTrap]

/-- A read answers a next state exactly where the chain answers a value, and then it is the register write. -/
theorem execMrs_next_iff (t : RegNum) (s s' : State) :
    execMrsTrcidr4 t s = .next s' ↔ ∃ v, access s.cfg s.ctx = .value v ∧ s.writeX t v = s' := by
  unfold execMrsTrcidr4
  cases access s.cfg s.ctx <;> simp [conclude, raiseUndefined, raiseSystemAccessTrap, Instr.rt]

end Sys2Proof.Machine
end

