-- ==== Sys2Proof/Laws/PerInstr.lean ====
section
/-! SUPPORT. A fact of every instruction as syntax: its word is its row of spec/opcode_table.json (match and mask), with the
register number in bits [4:0] (30_encoding.md R52, R55). -/

namespace Sys2Proof.Laws.TableRow

/-- The `match` value of an instruction's row in spec/opcode_table.json. -/
def matchBits : Instr → Word
  | .mrsTrcidr4 _ => 0xD5310CE0#32
  | .msrTrcidr4 _ => 0xD5110CE0#32

/-- The word under the row's mask is the row's match, and the rest of it is the register number. -/
def Statement (i : Instr) : Prop :=
  encode i &&& 0xFFFFFFE0#32 = matchBits i ∧ (encode i).extractLsb' 0 5 = i.rt

theorem mrsTrcidr4 (rt : RegNum) : Statement (.mrsTrcidr4 rt) := by
  revert rt; unfold Statement; decide

theorem msrTrcidr4 (rt : RegNum) : Statement (.msrTrcidr4 rt) := by
  revert rt; unfold Statement; decide

end Sys2Proof.Laws.TableRow
end

