-- ==== Sys2Proof/Laws/Trcidr4.lean ====
section
/-! SUPPORT. The value of six count fields as a number: no addition carries (10_state.md R22). -/

namespace Sys2Proof.Machine

theorem assemble_toNat (r : RawCounts) : (assemble r).toNat =
    r.numvmidc.toNat * 2 ^ 28 + r.numcidc.toNat * 2 ^ 24 + r.numsscc.toNat * 2 ^ 20 + r.numrspair.toNat * 2 ^ 16 +
      r.numpc.toNat * 2 ^ 12 + r.numacpairs.toNat := by
  have h1 := r.numvmidc.isLt
  have h2 := r.numcidc.isLt
  have h3 := r.numsscc.isLt
  have h4 := r.numrspair.isLt
  have h5 := r.numpc.isLt
  have h6 := r.numacpairs.isLt
  unfold assemble
  simp only [BitVec.toNat_append]
  repeat rw [← Nat.shiftLeft_add_eq_or_of_lt (by omega)]
  simp only [Nat.shiftLeft_eq, BitVec.toNat_ofNat]
  omega

/-- A well-formed count as a 4-bit value is the count. -/
theorem plainCount_toNat (p : PlainCount) : (BitVec.ofNat 4 p.val).toNat = p.val := by
  revert p; decide

end Sys2Proof.Machine
end

