-- ==== Sys2Proof/Laws/WellFormed.lean ====
section
/-! SUPPORT. The check of 10_state.md R23 as arithmetic: one lemma for a clause, one for the whole check. -/

namespace Sys2Proof

/-- A clause holds exactly when its field is at most 8. -/
theorem RawCounts.meets_iff (r : RawCounts) (c : CountClause) : r.meets c = true ↔ (r.field c).toNat ≤ 8 :=
  decide_eq_true_iff

/-- The check passes exactly when all five fields are at most 8. -/
theorem RawCounts.violated_eq_none_iff (r : RawCounts) : r.violated = none ↔
    r.numvmidc.toNat ≤ 8 ∧ r.numcidc.toNat ≤ 8 ∧ r.numsscc.toNat ≤ 8 ∧ r.numpc.toNat ≤ 8 ∧ r.numacpairs.toNat ≤ 8 := by
  have h : r.violated = none ↔ ∀ c ∈ CountClause.all, (r.field c).toNat ≤ 8 := by
    simp only [RawCounts.violated, List.find?_eq_none, Bool.not_eq_true', Bool.not_eq_false, RawCounts.meets_iff]
  rw [h]
  simp [CountClause.all, RawCounts.field]

end Sys2Proof
end

