-- ==== Sys2Proof/Tests/Slice0.lean ====
section
/-! SUPPORT. The model's own tests. Every expected result is from spec/: the vectors of 95_test_vectors.md (cited by id), the
counts of 40_sysreg_access.md R84 item 7, the tables of 10_state.md. The theorems named witness_… show a state that meets the
hypotheses of a statement, clause by clause. -/

namespace Sys2Proof.Tests

open Sys2Proof.Machine

/-! ## Helpers: the base row of 95_test_vectors.md section 3 -/

/-- `Cfg` = (1, 1, 1, 7, 0, 4), ETE implemented, EL3 implemented, priority Boolean false. -/
def cfg0 : Cfg where
  eteImplemented := true
  counts := { numvmidc := 1, numcidc := 1, numsscc := 1, numrspair := 7#4, numpc := 0, numacpairs := 4 }
  el3TrapPriorityWhenSdd := false
  haveEL3 := true
  trcidr4ExtOffset := 0x40

def cfgPrio : Cfg := { cfg0 with el3TrapPriorityWhenSdd := true }
def cfgNoEl3 : Cfg := { cfg0 with haveEL3 := false }
def cfgAbsent : Cfg := { cfg0 with eteImplemented := false }

/-- The base context at an Exception level. -/
def base (el : El) : Ctx where
  el := el
  halted := false
  sdd := false
  el3IsA32 := false
  cptrEl3Tta := false
  cpacrTta := false
  el2Enabled := true
  el2IsA32 := false
  cptrEl2Tta := false
  fgtEn := true
  hdfgrtrTrcid := false

/-- The base context in Debug state with SDD and `CPTR_EL3.TTA` set. -/
def debug3 (el : El) : Ctx := { base el with cptrEl3Tta := true, halted := true, sdd := true }

def stateOf (cfg : Cfg) (c : Ctx) (p : List Request) : State := { State.resetWith cfg c with pending := p }

/-- What the reader sees in X<t> after an outcome, or the stop. -/
def resultAt (t : RegNum) : Host.Outcome State Fault Refusal → Option XWord
  | .next s => some (s.readX t)
  | .fault _ => none
  | .refused _ => none

def extDataOf : Host.Outcome State Fault Refusal → Option Word
  | .next s => s.extData
  | .fault _ => none
  | .refused _ => none

def faultOf : Host.Outcome State Fault Refusal → Option Fault
  | .next _ => none
  | .fault f => some f
  | .refused _ => none

def refusalOf : Host.Outcome State Fault Refusal → Option Refusal
  | .next _ => none
  | .fault _ => none
  | .refused r => some r

/-! ## Well-formedness (V-F7): each clause refuses an ill-formed term, beside the nearest accepted one -/

def raw0 : RawCounts := ⟨0, 0, 0, 0, 0, 0⟩

theorem test_clause_numvmidc : ({ raw0 with numvmidc := 9 }).violated = some .numvmidc ∧ ({ raw0 with numvmidc := 8 }).WellFormed := by
  decide
theorem test_clause_numcidc : ({ raw0 with numcidc := 9 }).violated = some .numcidc ∧ ({ raw0 with numcidc := 8 }).WellFormed := by
  decide
theorem test_clause_numsscc : ({ raw0 with numsscc := 15 }).violated = some .numsscc ∧ ({ raw0 with numsscc := 8 }).WellFormed := by
  decide
theorem test_clause_numpc : ({ raw0 with numpc := 9 }).violated = some .numpc ∧ ({ raw0 with numpc := 8 }).WellFormed := by decide
theorem test_clause_numacpairs :
    ({ raw0 with numacpairs := 9 }).violated = some .numacpairs ∧ ({ raw0 with numacpairs := 8 }).WellFormed := by decide
theorem test_numrspair_has_no_reserved_value :
    ({ raw0 with numrspair := 9 }).WellFormed ∧ ({ raw0 with numrspair := 15 }).WellFormed := by decide
theorem test_every_instruction_is_well_formed :
    (Instr.mrsTrcidr4 31).wellFormed = true ∧ (Instr.msrTrcidr4 0).wellFormed = true := by decide

/-! ## The value and its fields -/

/-- V-F1 to V-F5, as six counts and the value. -/
theorem test_assembly_vectors :
    [(⟨0, 0, 0, 0, 0, 0⟩, 0x0#64), (⟨8, 8, 8, 15, 8, 8⟩, 0x888F8008#64), (⟨1, 1, 1, 7, 0, 4⟩, 0x11170004#64),
     (⟨1, 0, 0, 0, 0, 0⟩, 0x10000000#64), (⟨0, 1, 0, 0, 0, 0⟩, 0x01000000#64), (⟨0, 0, 1, 0, 0, 0⟩, 0x00100000#64),
     (⟨0, 0, 0, 1, 0, 0⟩, 0x00010000#64), (⟨0, 0, 0, 0, 1, 0⟩, 0x00001000#64), (⟨0, 0, 0, 0, 0, 1⟩, 0x1#64),
     (⟨8, 0, 0, 0, 0, 0⟩, 0x80000000#64), (⟨0, 0, 0, 15, 0, 0⟩, 0x000F0000#64),
     (⟨2, 2, 2, 3, 2, 2⟩, 0x22232002#64)].all (fun p : Counts × XWord => trcidr4 { cfg0 with counts := p.1 } == p.2) = true := by
  decide

/-- V-F5x. -/
theorem test_extraction_vector :
    rawCountsOf 0x48352006#64 = ⟨4, 8, 3, 5, 2, 6⟩ ∧ suppdacOf 0x48352006#64 = 0 ∧ numdvcOf 0x48352006#64 = 0 ∧
      bit8Name 0x48352006#64 = .suppdac ∧ bit8Name 0x48352000#64 = .res0 := by decide

/-- V-F6. -/
theorem test_selector_pair_counts :
    (List.range 16).map (fun n => rsPairCount (BitVec.ofNat 4 n)) = [0, 2, 3, 4, 5, 6, 7, 8, 9, 10, 11, 12, 13, 14, 15, 16] := by
  decide

/-- R13 to R21: 0b1000 is eight, 0b1001 is reserved. -/
theorem test_plain_count_boundary : plainCount 0b1000#4 = some 8 ∧ plainCount 0b1001#4 = none := by decide

/-- R20: `count_DVC = 0`; 0b0001 never appears in this hardware. -/
theorem test_dvc_count : dvcCount (numdvcOf 0x11170004#64) = some 0 ∧ dvcCount 0b0001#4 = none := by decide

/-- V-F8, and V-F2 as a value that is one. -/
theorem test_values_that_are_none :
    [0x100#64, 0x10#64, 0x200#64, 0x100000000#64, 0xFFFFFFFF80000000#64, 0x90000000#64, 0x9#64].all
      (fun v => !isTrcidr4Value v) = true ∧ isTrcidr4Value 0x888F8008#64 = true := by decide

/-! ## Decoding: words written out bit by bit from R52's table (95_test_vectors.md section 4) -/

theorem test_decode_mrs_words :
    decodeWord 0xD5310CE0#32 = .ok (.mrsTrcidr4 0) ∧ decodeWord 0xD5310CE3#32 = .ok (.mrsTrcidr4 3) ∧
    decodeWord 0xD5310CE5#32 = .ok (.mrsTrcidr4 5) ∧ decodeWord 0xD5310CFE#32 = .ok (.mrsTrcidr4 30) ∧
    decodeWord 0xD5310CFF#32 = .ok (.mrsTrcidr4 31) := by decide

theorem test_decode_msr_word :
    decodeWord 0b1101010100_0_10_001_0000_1100_111_00000#32 = .ok (.msrTrcidr4 0) := by decide

/-- E5 to E9 as words: one of the five numbers differs. -/
theorem test_decode_other_registers :
    [0xD5310CC0#32, 0xD5310DE0#32, 0xD5390CE0#32, 0xD5300CE0#32, 0xD5311CE0#32].map decodeWord =
      [.error (.notThisRegister { trcidr4Access true 0 with op2 := 0b110#3 }),
       .error (.notThisRegister { trcidr4Access true 0 with crm := 0b1101#4 }),
       .error (.notThisRegister { trcidr4Access true 0 with op0 := 0b11#2 }),
       .error (.notThisRegister { trcidr4Access true 0 with op1 := 0b000#3 }),
       .error (.notThisRegister { trcidr4Access true 0 with crn := 0b0001#4 })] := by decide

/-- A word that is no system register move: its fixed bits differ, or bit [20] is clear. -/
theorem test_decode_no_move :
    decodeWord 0x00000000#32 = .error (.notSystemRegisterMove 0) ∧
    decodeWord 0xD5210CE0#32 = .error (.notSystemRegisterMove 0xD5210CE0#32) := by decide

/-- R52: `MRS X0, TRCIDR4` is the bytes E0 0C 31 D5. -/
theorem test_bytes_of_mrs :
    encodeBytes (.mrsTrcidr4 0) = [0xE0, 0x0C, 0x31, 0xD5] ∧
    decodeBytes [0xE0, 0x0C, 0x31, 0xD5, 0xAA] = .ok (.mrsTrcidr4 0, [0xAA]) ∧
    decodeBytes [0xE0, 0x0C, 0x31] = .error .truncated := by decide

theorem test_table_words :
    decodeTableWord 32 0xD5310CE0 = some (.mrsTrcidr4 0) ∧ decodeTableWord 32 0xD5110CE0 = some (.msrTrcidr4 0) := by decide

/-- R54. -/
theorem test_assembly_text :
    (Instr.mrsTrcidr4 3).assembly = "MRS X3, TRCIDR4" ∧ (Instr.mrsTrcidr4 31).assembly = "MRS XZR, TRCIDR4" ∧
      (trcidr4Access true 0).genericName = "S2_1_C0_C12_7" := by decide

/-- 95_test_vectors.md section 4, the syndromes of t = 0, 3, 5, 30, 31. -/
theorem test_syndromes :
    [0, 3, 5, 30, 31].map (fun t => syndrome trapEc (trcidr4Access true t)) =
      [0x622E4019#32, 0x622E4079#32, 0x622E40B9#32, 0x622E43D9#32, 0x622E43F9#32] := by decide

/-! ## The chain: A1 to A50, and the counts of R84 item 7 -/

/-- A row: the vector's configuration and context, the arm that decides, and the outcome. -/
abbrev Row := Cfg × Ctx × Arm × AccessOutcome

def rowHolds (r : Row) : Bool := arm r.1 r.2.1 == r.2.2.1 && access r.1 r.2.1 == r.2.2.2

def readsValue : AccessOutcome := .value 0x11170004#64
def toEl1 : AccessOutcome := .trap .el1 0x18#6
def toEl2 : AccessOutcome := .trap .el2 0x18#6
def toEl3 : AccessOutcome := .trap .el3 0x18#6

/-- A1 to A10. -/
def rowsA1 : List Row :=
  [(cfg0, base .el0, .el0, .undefined),
   (cfg0, { base .el0 with cpacrTta := true, cptrEl2Tta := true, cptrEl3Tta := true }, .el0, .undefined),
   (cfg0, base .el1, .el1Value, readsValue),
   (cfg0, base .el2, .el2Value, readsValue),
   (cfg0, base .el3, .el3Value, readsValue),
   (cfgAbsent, base .el1, .absent, .undefined),
   (cfgAbsent, base .el3, .absent, .undefined),
   (cfgAbsent, { base .el1 with cpacrTta := true }, .absent, .undefined),
   (cfg0, { base .el1 with cpacrTta := true }, .el1CpacrTta, toEl1),
   (cfg0, { base .el1 with cpacrTta := true, cptrEl2Tta := true, cptrEl3Tta := true, hdfgrtrTrcid := true }, .el1CpacrTta, toEl1)]

/-- A11 to A20. -/
def rowsA11 : List Row :=
  [(cfg0, { base .el1 with cptrEl2Tta := true }, .el1CptrEl2Tta, toEl2),
   (cfg0, { base .el1 with cptrEl2Tta := true, el2Enabled := false }, .el1Value, readsValue),
   (cfg0, { base .el1 with cptrEl2Tta := true, el2IsA32 := true }, .el1Value, readsValue),
   (cfg0, { base .el1 with cptrEl2Tta := true, cptrEl3Tta := true }, .el1CptrEl2Tta, toEl2),
   (cfg0, { base .el1 with hdfgrtrTrcid := true }, .el1FineGrained, toEl2),
   (cfg0, { base .el1 with hdfgrtrTrcid := true, fgtEn := false }, .el1Value, readsValue),
   (cfgNoEl3, { base .el1 with hdfgrtrTrcid := true, fgtEn := false }, .el1FineGrained, toEl2),
   (cfg0, { base .el1 with hdfgrtrTrcid := true, el2Enabled := false }, .el1Value, readsValue),
   (cfg0, { base .el1 with hdfgrtrTrcid := true, el2IsA32 := true }, .el1Value, readsValue),
   (cfg0, { base .el1 with hdfgrtrTrcid := true, fgtEn := false, cptrEl3Tta := true }, .el1CptrEl3Tta, toEl3)]

/-- A21 to A34. -/
def rowsA21 : List Row :=
  [(cfg0, { base .el1 with cptrEl3Tta := true }, .el1CptrEl3Tta, toEl3),
   (cfgNoEl3, { base .el1 with cptrEl3Tta := true }, .el1Value, readsValue),
   (cfg0, { base .el1 with cptrEl3Tta := true, el3IsA32 := true }, .el1Value, readsValue),
   (cfg0, { base .el1 with cptrEl3Tta := true, halted := true }, .el1CptrEl3Tta, toEl3),
   (cfg0, { base .el1 with cptrEl3Tta := true, sdd := true }, .el1CptrEl3Tta, toEl3),
   (cfg0, debug3 .el1, .el1Sdd, .undefined),
   (cfgPrio, debug3 .el1, .el1SddPrioritised, .undefined),
   (cfg0, { debug3 .el1 with cpacrTta := true }, .el1CpacrTta, toEl1),
   (cfgPrio, { debug3 .el1 with cpacrTta := true }, .el1SddPrioritised, .undefined),
   (cfg0, { debug3 .el1 with cptrEl2Tta := true }, .el1CptrEl2Tta, toEl2),
   (cfgPrio, { debug3 .el1 with cptrEl2Tta := true }, .el1SddPrioritised, .undefined),
   (cfgPrio, { debug3 .el1 with hdfgrtrTrcid := true }, .el1SddPrioritised, .undefined),
   (cfgPrio, { base .el1 with halted := true, sdd := true }, .el1Value, readsValue),
   (cfgPrio, { debug3 .el1 with el3IsA32 := true }, .el1Value, readsValue)]

/-- A35 to A50. -/
def rowsA35 : List Row :=
  [(cfg0, { base .el2 with cptrEl2Tta := true }, .el2CptrEl2Tta, toEl2),
   (cfg0, { base .el2 with cptrEl2Tta := true, el2Enabled := false, el2IsA32 := true }, .el2CptrEl2Tta, toEl2),
   (cfg0, { base .el2 with cpacrTta := true, hdfgrtrTrcid := true }, .el2Value, readsValue),
   (cfg0, { base .el2 with cptrEl2Tta := true, cptrEl3Tta := true }, .el2CptrEl2Tta, toEl2),
   (cfg0, { base .el2 with cptrEl3Tta := true }, .el2CptrEl3Tta, toEl3),
   (cfgNoEl3, { base .el2 with cptrEl3Tta := true }, .el2Value, readsValue),
   (cfg0, { base .el2 with cptrEl3Tta := true, el3IsA32 := true }, .el2Value, readsValue),
   (cfg0, debug3 .el2, .el2Sdd, .undefined),
   (cfgPrio, debug3 .el2, .el2SddPrioritised, .undefined),
   (cfg0, { debug3 .el2 with cptrEl2Tta := true }, .el2CptrEl2Tta, toEl2),
   (cfgPrio, { debug3 .el2 with cptrEl2Tta := true }, .el2SddPrioritised, .undefined),
   (cfgPrio, { base .el2 with cptrEl3Tta := true, halted := true }, .el2CptrEl3Tta, toEl3),
   (cfg0, { base .el3 with cptrEl3Tta := true }, .el3CptrEl3Tta, toEl3),
   (cfgPrio, debug3 .el3, .el3CptrEl3Tta, toEl3),
   (cfgNoEl3, { base .el3 with cptrEl3Tta := true, el3IsA32 := true }, .el3CptrEl3Tta, toEl3),
   (cfg0, { base .el3 with cpacrTta := true, cptrEl2Tta := true, hdfgrtrTrcid := true }, .el3Value, readsValue)]

theorem test_access_vectors :
    (rowsA1 ++ rowsA11 ++ rowsA21 ++ rowsA35).length = 50 ∧ (rowsA1 ++ rowsA11 ++ rowsA21 ++ rowsA35).all rowHolds = true := by
  decide

/-- The arm at a setting of the eleven Boolean inputs and the priority Boolean, numbered by twelve bits. -/
def armAtSetting (el : El) (n : Nat) : Arm :=
  arm { cfg0 with el3TrapPriorityWhenSdd := n.testBit 0, haveEL3 := n.testBit 1 }
    { el := el, halted := n.testBit 2, sdd := n.testBit 3, el3IsA32 := n.testBit 4, cptrEl3Tta := n.testBit 5,
      cpacrTta := n.testBit 6, el2Enabled := n.testBit 7, el2IsA32 := n.testBit 8, cptrEl2Tta := n.testBit 9,
      fgtEn := n.testBit 10, hdfgrtrTrcid := n.testBit 11 }

def settingsOf (el : El) (a : Arm) : Nat := (List.range 4096).countP (fun n => armAtSetting el n == a)

/-- R84 item 7. -/
theorem test_counts_at_el1 :
    [Arm.el1SddPrioritised, .el1CpacrTta, .el1CptrEl2Tta, .el1FineGrained, .el1Sdd, .el1CptrEl3Tta, .el1Value].map
      (settingsOf .el1) = [64, 2016, 252, 95, 27, 162, 1480] := by decide +kernel

/-- R84 item 7. -/
theorem test_counts_at_el2_and_el3 :
    [Arm.el2SddPrioritised, .el2CptrEl2Tta, .el2Sdd, .el2CptrEl3Tta, .el2Value].map (settingsOf .el2) =
      [64, 2016, 32, 192, 1792] ∧
    [Arm.el3CptrEl3Tta, .el3Value].map (settingsOf .el3) = [2048, 2048] := by decide +kernel

/-! ## Steps (95_test_vectors.md section 5) -/

/-- P1, from the reset state: `MRS X3` leaves the value of R60's example in X3 and zero in X4. -/
theorem test_mrs_first_step :
    resultAt 3 (step (State.reset.withFetchWord 32 0xD5310CE3)) = some 0x0000000011170004#64 ∧
    resultAt 4 (step (State.reset.withFetchWord 32 0xD5310CE3)) = some 0#64 := by decide

/-- P3: the trap to EL1. -/
theorem test_mrs_trap :
    faultOf (step (stateOf cfg0 { base .el1 with cpacrTta := true } [.word { base .el1 with cpacrTta := true } 0xD5310CE5#32])) =
      some (.systemAccessTrap .el1 0x18#6 (.mrsTrcidr4 5)) := by decide

/-- P6: the checks are made even for XZR, and X30 keeps its value where they pass. -/
theorem test_mrs_xzr :
    faultOf (exec (.mrsTrcidr4 31) (stateOf cfg0 (base .el0) [])) = some (.undefined (.mrsTrcidr4 31)) ∧
    resultAt 30 (exec (.mrsTrcidr4 31) (stateOf cfg0 (base .el3) [])) = some 0#64 := by decide

/-- E4 and R81: the write form is Undefined where a read would succeed. -/
theorem test_msr_undefined :
    faultOf (step (State.reset.withFetchWord 32 0xD5110CE0)) = some (.undefined (.msrTrcidr4 0)) ∧
    faultOf (exec (.msrTrcidr4 0) (stateOf cfg0 { base .el1 with cpacrTta := true } [])) = some (.undefined (.msrTrcidr4 0)) := by
  decide

/-- V-F9. -/
theorem test_external_read :
    extRead cfg0 true = some 0x11170004#32 ∧ extRead cfg0 false = none ∧ extRead cfgAbsent true = none ∧
    extDataOf (step (stateOf cfg0 (base .el0) [.extRead true])) = some 0x11170004#32 := by decide

/-- R44: one address and one width. -/
theorem test_external_mem_read :
    extDataOf (step (stateOf cfg0 (base .el0) [.extMemRead 0x1000 0x1040 4 true])) = some 0x11170004#32 ∧
    refusalOf (step (stateOf cfg0 (base .el0) [.extMemRead 0x1000 0x1044 4 true])) = some .externalReadRefused ∧
    refusalOf (step (stateOf cfg0 (base .el0) [.extMemRead 0x1000 0x1040 8 true])) = some .externalReadRefused ∧
    refusalOf (step (stateOf cfg0 (base .el0) [.extMemRead 0x1001 0x1041 4 true])) = some .externalReadRefused := by decide

/-- P2: two reads at EL2 and an external read agree. -/
theorem test_reads_agree :
    outcomes (stateOf cfg0 (base .el0)
        [.word (base .el2) 0xD5310CE1#32, .word (base .el2) 0xD5310CE2#32, .extRead true]) =
      [.direct (.value 0x11170004#64), .direct (.value 0x11170004#64), .external 0x11170004#32] := by decide

/-! ## Witnesses: the hypotheses of the statements can be met -/

/-- PermittedReadWritesTheValue, ReadSucceedsExactlyWhenPermitted, OrderOfTheTwoAgentsIsNotObservable: at each level, with the
other levels' controls set, and refused at EL0. -/
theorem witness_permitted :
    ReadPermitted cfg0 { base .el1 with cptrEl2Tta := true, el2Enabled := false } ∧
    ReadPermitted cfg0 { base .el2 with cpacrTta := true } ∧ ReadPermitted cfg0 { base .el3 with cptrEl2Tta := true } ∧
    ¬ ReadPermitted cfg0 (base .el0) := ⟨by decide, by decide, by decide, by decide⟩

/-- ReadReturnsZeroInReservedFields, InstructionsWriteOnlyTheirDestination, RepeatedReadsAgree: a read that answers a next
state, for X5 and for XZR. -/
theorem witness_read_answers :
    (∃ s', exec (.mrsTrcidr4 5) (stateOf cfg0 (base .el1) []) = .next s') ∧
    (∃ s', exec (.mrsTrcidr4 31) (stateOf cfg0 (base .el1) []) = .next s') := ⟨⟨_, rfl⟩, ⟨_, rfl⟩⟩

/-- AbsentRegisterIsUndefined, ReadAtEl0IsUndefined. -/
theorem witness_absent_and_el0 :
    (stateOf cfgAbsent (base .el3) []).cfg.eteImplemented = false ∧ (stateOf cfg0 (base .el0) []).ctx.el = .el0 := by decide

/-- PresentRegisterIsUndefinedExactlyThere: each clause, with the register present (A1, A26, A29, A42, A45), and a state in no
clause (A28). -/
theorem witness_undefined_clauses :
    cfg0.eteImplemented = true ∧ cfgPrio.eteImplemented = true ∧ (base .el0).el = .el0 ∧
    (debugHidesEl3Trap cfg0 (debug3 .el1) ∧ ¬ el2StopsEl1 cfg0 (debug3 .el1)) ∧
    debugHidesEl3Trap cfgPrio { debug3 .el1 with cpacrTta := true } ∧ debugHidesEl3Trap cfg0 (debug3 .el2) ∧
    debugHidesEl3Trap cfgPrio { debug3 .el2 with cptrEl2Tta := true } ∧
    faultOf (exec (.mrsTrcidr4 0) (stateOf cfg0 { debug3 .el1 with cpacrTta := true } [])) =
      some (.systemAccessTrap .el1 0x18#6 (.mrsTrcidr4 0)) := by decide

/-- TrapToEl1ExactlyByCpacr, TrapToEl2ExactlyByItsControls, TrapToEl3ExactlyByItsControl: each clause (A9, A11, A17, A35, A21,
A39, A48). -/
theorem witness_trap_clauses :
    ¬ debugOutranks cfg0 { base .el1 with cpacrTta := true } ∧
    (el2StopsEl1 cfg0 { base .el1 with cptrEl2Tta := true } ∧ ¬ debugOutranks cfg0 { base .el1 with cptrEl2Tta := true }) ∧
    el2StopsEl1 cfgNoEl3 { base .el1 with hdfgrtrTrcid := true, fgtEn := false } ∧
    ¬ debugOutranks cfg0 { base .el2 with cptrEl2Tta := true } ∧
    (el3Stops cfg0 { base .el1 with cptrEl3Tta := true } ∧ ¬ el2StopsEl1 cfg0 { base .el1 with cptrEl3Tta := true }) ∧
    el3Stops cfg0 { base .el2 with cptrEl3Tta := true } ∧ (debug3 .el3).cptrEl3Tta = true := by decide

/-- TrapNeverTargetsALowerLevel: a trap to EL3 from EL1. -/
theorem witness_trap :
    exec (.mrsTrcidr4 7) (stateOf cfg0 { base .el1 with cptrEl3Tta := true } []) =
      .fault (.systemAccessTrap .el3 0x18#6 (.mrsTrcidr4 7)) := rfl

/-- OutcomeIgnoresEverythingButCfgAndCtx: two states that agree on both and differ elsewhere, and reads of them, into X5 and X6,
that both answer. -/
theorem witness_same_cfg_and_ctx :
    (∃ s', exec (.mrsTrcidr4 5) (stateOf cfg0 (base .el1) []) = .next s') ∧
    (∃ s', exec (.mrsTrcidr4 6) (stateOf cfg0 (base .el1) [.extRead true]) = .next s') ∧
    (stateOf cfg0 (base .el1) []).cfg = (stateOf cfg0 (base .el1) [.extRead true]).cfg ∧
    (stateOf cfg0 (base .el1) []).ctx = (stateOf cfg0 (base .el1) [.extRead true]).ctx ∧
    (stateOf cfg0 (base .el1) []).pending ≠ (stateOf cfg0 (base .el1) [.extRead true]).pending :=
  ⟨⟨_, rfl⟩, ⟨_, rfl⟩, rfl, rfl, by decide⟩

/-- DebugStateMattersInOneSituationOnly: its hypothesis is met at EL3, and in its one situation the two outcomes differ. -/
theorem witness_debug_state :
    ¬ (((debug3 .el3).el = .el1 ∨ (debug3 .el3).el = .el2) ∧ el3Stops cfg0 (debug3 .el3) ∧ (debug3 .el3).sdd = true) ∧
    access cfg0 { debug3 .el1 with halted := true } ≠ access cfg0 { debug3 .el1 with halted := false } := by decide

/-- OutsideDebugStateOnlyAbsenceAndEl0AreUndefined, WithoutEl3TheChainReduces, ClearControlsRemoveTheirArms. -/
theorem witness_reductions :
    (base .el1).halted = false ∧ (cfgNoEl3.eteImplemented = true ∧ cfgNoEl3.haveEL3 = false ∧ (base .el2).el = .el2) ∧
    ({ base .el1 with el2Enabled := false, cptrEl2Tta := true }).el2Enabled = false ∧
    ((base .el1).cpacrTta = false ∧ (base .el1).cptrEl2Tta = false ∧ (base .el1).cptrEl3Tta = false ∧
      (base .el1).hdfgrtrTrcid = false) := by decide

/-- DecodeAndEncodeAgree's second clause, StepRunsTheDecodedInstruction (both forms), StepRefusesEverythingElseByName (each
clause). -/
theorem witness_steps :
    decodeWord 0xD5310CFF#32 = .ok (.mrsTrcidr4 31) ∧ decodeAccess (trcidr4Access false 31) = .ok (.msrTrcidr4 31) ∧
    refusalOf (step (stateOf cfg0 (base .el1) [.word (base .el1) 0#32])) = some (.notThisHardware (.notSystemRegisterMove 0)) ∧
    refusalOf (step (stateOf cfg0 (base .el1) [.access (base .el1) { trcidr4Access true 0 with op2 := 0 }])) =
      some (.notThisHardware (.notThisRegister { trcidr4Access true 0 with op2 := 0 })) ∧
    refusalOf (step (stateOf cfg0 (base .el1) [.extWrite 0])) = some .externalWriteRefused ∧
    refusalOf (step (stateOf cfg0 (base .el1) [])) = some .noAccessLeft ∧
    resultAt 9 (step (stateOf cfg0 (base .el1) [.access (base .el2) (trcidr4Access true 9)])) = some 0x11170004#64 := by decide

/-- ExternalReadGivesTheLowWord, ExternalAndDirectReadsAgree's first clause: an external read is next, is served, another access
completes, and a read at another level answers. -/
theorem witness_external_then_direct :
    ∃ s1 s2 s3, step (stateOf cfg0 (base .el1) [.extRead true, .word (base .el2) 0xD5310CE4#32]) = .next s1 ∧
      core.run 1 s1 = .next s2 ∧ exec (.mrsTrcidr4 2) { s2 with ctx := base .el3 } = .next s3 := ⟨_, _, _, rfl, rfl, rfl⟩

/-- MemReadIsServedAtOneAddressAndWidth, ExternalAndDirectReadsAgree's second clause: a read answers, another access completes,
and an external read in its other form is next and is served. -/
theorem witness_direct_then_external :
    ∃ s1 s2 s3, exec (.mrsTrcidr4 30)
        (stateOf cfg0 (base .el1) [.word (base .el2) 0xD5310CE4#32, .extMemRead 0x1000 0x1040 4 true]) = .next s1 ∧
      core.run 1 s1 = .next s2 ∧ s2.pending = [.extMemRead 0x1000 0x1040 4 true] ∧ step s2 = .next s3 :=
  ⟨_, _, _, rfl, rfl, rfl, rfl⟩

/-- StepKeepsTheRegisterConstant, RunsNeverChangeTheRegister: a state reaches itself, and a step from it answers. -/
theorem witness_reached :
    ReachedFrom (stateOf cfg0 (base .el1) [.extRead true]) (stateOf cfg0 (base .el1) [.extRead true]) ∧
    (∃ s', step (stateOf cfg0 (base .el1) [.extRead true]) = .next s') ∧
    (∃ s', core.run 1 (stateOf cfg0 (base .el1) [.extRead true]) = .next s') :=
  ⟨⟨rfl, fun _ => .inl rfl, .inl rfl⟩, ⟨_, rfl⟩, ⟨_, rfl⟩⟩

/-- RunEndsAtTheFirstAccessThatFails: each of its three ends (P4's first access for the second). -/
theorem witness_run_ends :
    (∃ s', run (stateOf cfg0 (base .el1) [.extRead true]) = .final s') ∧
    (∃ s' f, run (stateOf cfg0 (base .el1) [.extRead true, .word { base .el1 with hdfgrtrTrcid := true } 0xD5310CE0#32]) =
      .faulted s' f) ∧
    (∃ s' r, run (stateOf cfg0 (base .el1) [.extRead false]) = .refused s' r) := ⟨⟨_, rfl⟩, ⟨_, _, rfl⟩, ⟨_, _, rfl⟩⟩

/-- BuildAcceptsExactlyTheFiveClauses: both answers occur. -/
theorem witness_build :
    Counts.build ⟨1, 1, 1, 7, 0, 4⟩ = .ok ⟨1, 1, 1, 7, 0, 4⟩ ∧ Counts.build ⟨0, 0, 0, 0, 9, 9⟩ = .error .numpc := by decide

end Sys2Proof.Tests
end

/-! # Proofs: the state (10_state.md)

First what a completed instruction and a completed step do, and the invariant `ReachedFrom` carried along steps and runs; then
the value of the register: its bits, its fields, and the configurations behind it. -/

section
namespace Sys2Proof.Machine

/-! ## What a completed instruction does -/

/-- An instruction that completes found the register present and wrote its value to its destination (R78); the write form
never completes (R81). -/
theorem exec_next {i : Instr} {s s' : State} (h : exec i s = .next s') :
    s.cfg.eteImplemented = true ∧ s' = s.writeX i.rt (trcidr4 s.cfg) := by
  cases i with
  | mrsTrcidr4 t =>
    obtain ⟨v, hv, rfl⟩ := (execMrs_next_iff t s s').1 h
    obtain ⟨hpresent, rfl⟩ := access_value hv
    exact ⟨hpresent, rfl⟩
  | msrTrcidr4 t =>
    obtain ⟨v, hv, -⟩ := conclude_next (s := s) (i := .msrTrcidr4 t) (o := writeAccess) h
    cases hv

/-- Settles O20: a completed instruction is one register write, and the frame is that write's. -/
theorem instructionsWriteOnlyTheirDestination : Obligations.InstructionsWriteOnlyTheirDestination := by
  intro i s s' h
  obtain ⟨-, rfl⟩ := exec_next h
  exact ⟨fun u hu => s.readX_writeX_ne i.rt u _ hu, by simp⟩

/-! ## The invariant `ReachedFrom`, and what keeps it -/

theorem ReachedFrom.refl (s : State) : ReachedFrom s s := ⟨rfl, fun _ => .inl rfl, .inl rfl⟩

theorem ReachedFrom.trans {s0 s1 s2 : State} (h01 : ReachedFrom s0 s1) (h12 : ReachedFrom s1 s2) : ReachedFrom s0 s2 := by
  obtain ⟨hcfg, hreg, hext⟩ := h12
  rw [h01.cfg_eq] at hcfg hreg hext
  refine ⟨hcfg, fun t => ?_, ?_⟩
  · rcases hreg t with hold | hnew
    · exact hold ▸ h01.reg_ok t
    · exact .inr hnew
  · rcases hext with hold | hnew
    · exact hold ▸ h01.ext_ok
    · exact .inr hnew

/-- Taking an access off the list with its context touches nothing the invariant speaks of. -/
theorem reachedFrom_update (s : State) (ctx : Ctx) (rest : List Request) :
    ReachedFrom s { s with ctx := ctx, pending := rest } :=
  ⟨rfl, fun _ => .inl rfl, .inl rfl⟩

/-- Writing the value of a register that is present keeps the invariant, whichever register receives it. -/
theorem reachedFrom_writeX {s : State} (t : RegNum) (hpresent : s.cfg.eteImplemented = true) :
    ReachedFrom s (s.writeX t (trcidr4 s.cfg)) := by
  refine ⟨s.writeX_cfg t _, fun u => ?_, .inl (s.writeX_extData t _)⟩
  by_cases hu : u = t
  · subst hu
    by_cases hz : u = 31#5
    · subst hz; exact .inl rfl
    · exact .inr ⟨hpresent, s.readX_writeX_self u _ hz⟩
  · exact .inl (s.readX_writeX_ne t u _ hu)

/-- Handing the External reader the low word of a register that is present keeps the invariant. -/
theorem reachedFrom_deliverExternal {s : State} (hpresent : s.cfg.eteImplemented = true) :
    ReachedFrom s (deliverExternal (trcidr4Ext s.cfg) s) :=
  ⟨rfl, fun _ => .inl rfl, .inr ⟨hpresent, rfl⟩⟩

/-- A step that completes reaches its next state by the invariant, and takes exactly one access off the list. -/
theorem step_next_reachedFrom {s s' : State} (h : step s = .next s') :
    ReachedFrom s s' ∧ ∃ q, s.pending = q :: s'.pending := by
  rcases step_next h with ⟨i, s1, -, hfetch, hexec, -, -⟩ | ⟨w, s1, hfetch, rfl⟩
  · obtain ⟨ctx, rest, rfl, hp⟩ := fetch_run hfetch
    obtain ⟨hpresent, rfl⟩ := exec_next hexec
    refine ⟨(reachedFrom_update s ctx rest).trans (reachedFrom_writeX i.rt hpresent), ?_⟩
    rw [State.writeX_pending]
    rcases hp with ⟨_, hp, -⟩ | ⟨_, hp, -⟩ <;> exact ⟨_, hp⟩
  · obtain ⟨hpresent, rfl, q, rest, hp, rfl⟩ := fetch_external hfetch
    exact ⟨(reachedFrom_update s s.ctx rest).trans (reachedFrom_deliverExternal hpresent), q, hp⟩

/-- Settles O41: the step's own invariant, composed with the one that leads to it. -/
theorem stepKeepsTheRegisterConstant : Obligations.StepKeepsTheRegisterConstant := by
  intro s0 s s' hreached h
  obtain ⟨hstep, q, hp⟩ := step_next_reachedFrom h
  exact ⟨hreached.trans hstep, by rw [hp, List.tail_cons]⟩

/-- A run of `n + 1` steps is a step that completes and a run of `n` steps from where it leads. -/
theorem core_run_succ_next {n : Nat} {s s' : State} (h : core.run (n + 1) s = .next s') :
    ∃ s1, step s = .next s1 ∧ core.run n s1 = .next s' := by
  simp only [Host.Core.run] at h
  split at h
  next s1 hstep => exact ⟨s1, hstep, h⟩
  next => cases h
  next => cases h

/-- Settles O42, by induction on the number of steps. -/
theorem runsNeverChangeTheRegister : Obligations.RunsNeverChangeTheRegister := by
  intro n
  induction n with
  | zero =>
    intro s s' h
    cases h
    exact ⟨.refl s, Nat.zero_le _, rfl⟩
  | succ n ih =>
    intro s s' h
    obtain ⟨s1, hstep, hrun⟩ := core_run_succ_next h
    obtain ⟨hfirst, q, hp⟩ := step_next_reachedFrom hstep
    obtain ⟨hrest, hlen, hdrop⟩ := ih s1 s' hrun
    refine ⟨hfirst.trans hrest, ?_, ?_⟩
    · rw [hp, List.length_cons]; omega
    · rw [hp, List.drop_succ_cons, hdrop]

/-- After reset every register number reads as zero, XZR too. -/
theorem resetWith_readX (cfg : Cfg) (ctx : Ctx) (t : RegNum) : (State.resetWith cfg ctx).readX t = 0#64 := by
  unfold State.readX State.resetWith
  split
  · exact Vector.getElem_replicate _
  · rfl

/-- Settles O40. -/
theorem resetLeavesTheConstantValue : Obligations.ResetLeavesTheConstantValue := fun cfg ctx =>
  ⟨rfl, resetWith_readX cfg ctx, rfl, rfl, .refl _⟩

end Sys2Proof.Machine
end

section
namespace Sys2Proof

/-! ## Well-formed counts and the six values they stand for -/

/-- A legal field value is the value of the count it is read as. -/
theorem ofNat_val_finOfNat {f : BitVec 4} (h : f.toNat ≤ 8) : BitVec.ofNat 4 (Fin.ofNat 9 f.toNat).val = f := by
  rw [Fin.val_ofNat, Nat.mod_eq_of_lt (by omega), BitVec.ofNat_toNat, BitVec.setWidth_eq]

/-- The counts of a configuration pass the check of R23. -/
theorem Counts.raw_wellFormed (c : Counts) : c.raw.WellFormed := by
  simp only [RawCounts.WellFormed, RawCounts.violated_eq_none_iff, Counts.raw, Machine.plainCount_toNat]
  omega

/-- Different counts stand for different field values. -/
theorem Counts.raw_injective : Function.Injective Counts.raw := by
  have hfield : Function.Injective fun p : PlainCount => BitVec.ofNat 4 p.val := by decide
  rintro ⟨a1, a2, a3, a4, a5, a6⟩ ⟨b1, b2, b3, b4, b5, b6⟩ h
  obtain ⟨h1, h2, h3, h4, h5, h6⟩ := RawCounts.mk.inj h
  exact (Counts.mk.injEq ..).mpr ⟨hfield h1, hfield h2, hfield h3, h4, hfield h5, hfield h6⟩

/-- Construction accepts what passes the check. -/
theorem Counts.build_ok_of_wellFormed {r : RawCounts} (h : r.WellFormed) : ∃ c, Counts.build r = .ok c := by
  unfold Counts.build
  rw [h]
  exact ⟨_, rfl⟩

/-- Construction refuses with the clause the check names. -/
theorem Counts.build_error {r : RawCounts} {k : CountClause} (h : Counts.build r = .error k) : r.violated = some k := by
  unfold Counts.build at h
  split at h
  next k' hk => rw [hk, Except.error.inj h]
  next => cases h

/-- What construction builds stands for the field values it was given. -/
theorem Counts.raw_of_build_ok {r : RawCounts} {c : Counts} (h : Counts.build r = .ok c) : c.raw = r := by
  unfold Counts.build at h
  split at h
  next => cases h
  next hwf =>
    obtain ⟨h1, h2, h3, h5, h6⟩ := r.violated_eq_none_iff.1 hwf
    rw [← Except.ok.inj h, Counts.raw, ofNat_val_finOfNat h1, ofNat_val_finOfNat h2, ofNat_val_finOfNat h3,
      ofNat_val_finOfNat h5, ofNat_val_finOfNat h6]

/-- Six field values are those of some counts exactly when they pass the check. -/
theorem exists_counts_raw_eq_iff (r : RawCounts) : (∃ c : Counts, c.raw = r) ↔ r.WellFormed := by
  constructor
  · rintro ⟨c, rfl⟩
    exact c.raw_wellFormed
  · intro h
    obtain ⟨c, hc⟩ := Counts.build_ok_of_wellFormed h
    exact ⟨c, Counts.raw_of_build_ok hc⟩

/-- The clause that the check names fails. -/
theorem RawCounts.field_of_violated {r : RawCounts} {k : CountClause} (h : r.violated = some k) : 8 < (r.field k).toNat := by
  have hk : (!r.meets k) = true := List.find?_some (p := fun c => !r.meets c) h
  rw [Bool.not_eq_true', ← Bool.not_eq_true, RawCounts.meets_iff] at hk
  omega

/-- Settles O4. -/
theorem buildAcceptsExactlyTheFiveClauses : Obligations.BuildAcceptsExactlyTheFiveClauses := by
  intro r
  refine ⟨?_, fun c => Counts.raw_of_build_ok, fun k h => RawCounts.field_of_violated (Counts.build_error h)⟩
  rw [← RawCounts.violated_eq_none_iff]
  constructor
  · rintro ⟨c, hc⟩
    exact Counts.raw_of_build_ok hc ▸ c.raw_wellFormed
  · exact Counts.build_ok_of_wellFormed

/-- The counts as a product of their six fields, to be counted. -/
def countsEquivProd :
    Counts ≃ PlainCount × PlainCount × PlainCount × BitVec 4 × PlainCount × PlainCount where
  toFun c := (c.numvmidc, c.numcidc, c.numsscc, c.numrspair, c.numpc, c.numacpairs)
  invFun p := ⟨p.1, p.2.1, p.2.2.1, p.2.2.2.1, p.2.2.2.2.1, p.2.2.2.2.2⟩
  left_inv _ := rfl
  right_inv _ := rfl

/-- Nine values for each of the five plain counts and sixteen for NUMRSPAIR. -/
theorem card_counts : Nat.card Counts = 944784 := by
  have hpairs : Nat.card (BitVec 4) = 16 := (Nat.card_congr BitVec.equivFin.toEquiv).trans (Nat.card_fin _)
  simp only [Nat.card_congr countsEquivProd, Nat.card_prod, Nat.card_fin, hpairs, Nat.reduceMul]

/-- Settles O5: the well-formed field values are the counts, one for one. -/
theorem wellFormedCombinationsNumber944784 : Obligations.WellFormedCombinationsNumber944784 := by
  have hbij : Function.Bijective fun c : Counts => (⟨c.raw, c.raw_wellFormed⟩ : Subtype RawCounts.WellFormed) := by
    constructor
    · exact fun a b h => Counts.raw_injective (congrArg Subtype.val h)
    · rintro ⟨r, hr⟩
      obtain ⟨c, rfl⟩ := (exists_counts_raw_eq_iff r).2 hr
      exact ⟨c, rfl⟩
  exact (Nat.card_eq_of_bijective _ hbij).symm.trans card_counts

end Sys2Proof
end

section
namespace Sys2Proof.Machine

/-! ## The bits of the value -/

/-- Any run of bits of an assembled value, as a number. -/
theorem toNat_extractLsb'_assemble (r : RawCounts) (start len : Nat) : ((assemble r).extractLsb' start len).toNat =
    (r.numvmidc.toNat * 2 ^ 28 + r.numcidc.toNat * 2 ^ 24 + r.numsscc.toNat * 2 ^ 20 + r.numrspair.toNat * 2 ^ 16 +
      r.numpc.toNat * 2 ^ 12 + r.numacpairs.toNat) / 2 ^ start % 2 ^ len := by
  rw [BitVec.extractLsb'_toNat, assemble_toNat, Nat.shiftRight_eq_div_pow]

/-- Extraction undoes assembly (R25). -/
theorem rawCountsOf_assemble (r : RawCounts) : rawCountsOf (assemble r) = r := by
  have h1 := r.numvmidc.isLt
  have h2 := r.numcidc.isLt
  have h3 := r.numsscc.isLt
  have h4 := r.numrspair.isLt
  have h5 := r.numpc.isLt
  have h6 := r.numacpairs.isLt
  unfold rawCountsOf
  congr 1 <;> (apply BitVec.eq_of_toNat_eq; rw [toNat_extractLsb'_assemble]; omega)

/-- The fields that hold no count are zero in every assembled value (R12, R18, R19, R20). -/
theorem assemble_reserved_fields (r : RawCounts) :
    (assemble r).extractLsb' 32 32 = 0#32 ∧ (assemble r).extractLsb' 9 3 = 0#3 ∧
      suppdacOf (assemble r) = 0#1 ∧ numdvcOf (assemble r) = 0#4 := by
  have h1 := r.numvmidc.isLt
  have h6 := r.numacpairs.isLt
  unfold suppdacOf numdvcOf
  refine ⟨?_, ?_, ?_, ?_⟩ <;>
    (apply BitVec.eq_of_toNat_eq; rw [toNat_extractLsb'_assemble, BitVec.toNat_ofNat]; omega)

/-- The bits of the mask: [31:12] and [3:0] (R22). -/
theorem valueMask_getLsbD : ∀ i < 64, valueMask.getLsbD i = decide (i < 4 ∨ 12 ≤ i ∧ i < 32) := by
  decide

/-- Assembly after extraction, bit by bit: it keeps the bits of the mask and clears the others. -/
theorem assemble_rawCountsOf (v : XWord) : assemble (rawCountsOf v) = v &&& valueMask := by
  apply BitVec.eq_of_getLsbD_eq
  intro i hi
  rw [BitVec.getLsbD_and, valueMask_getLsbD i hi]
  simp only [assemble, rawCountsOf, BitVec.getLsbD_append, BitVec.getLsbD_extractLsb', BitVec.getLsbD_zero]
  grind

/-- No bit of an assembled value lies outside the mask (R22). -/
theorem assemble_and_valueMask (r : RawCounts) : assemble r &&& valueMask = assemble r := by
  rw [← assemble_rawCountsOf, rawCountsOf_assemble]

/-! ## The value of an implementation -/

/-- A configuration with given counts. -/
def cfgOfCounts (c : Counts) : Cfg := { Cfg.atReset with counts := c }

theorem trcidr4_cfgOfCounts (c : Counts) : trcidr4 (cfgOfCounts c) = assemble c.raw := rfl

theorem rawCountsOf_trcidr4 (cfg : Cfg) : rawCountsOf (trcidr4 cfg) = cfg.counts.raw := rawCountsOf_assemble _

theorem trcidr4_toNat (cfg : Cfg) : (trcidr4 cfg).toNat =
    cfg.counts.numvmidc.val * 2 ^ 28 + cfg.counts.numcidc.val * 2 ^ 24 + cfg.counts.numsscc.val * 2 ^ 20 +
      cfg.counts.numrspair.toNat * 2 ^ 16 + cfg.counts.numpc.val * 2 ^ 12 + cfg.counts.numacpairs.val := by
  simp only [trcidr4, assemble_toNat, Counts.raw, plainCount_toNat]

/-- The largest counts: 8 everywhere, and NUMRSPAIR all ones. -/
def largestCounts : Counts := ⟨8, 8, 8, 15#4, 8, 8⟩

/-- Counts whose value has the bits of the mask that the largest value leaves clear. -/
def sevensCounts : Counts := ⟨7, 7, 7, 15#4, 7, 7⟩

/-- Every bit of the mask is one in one of the two values: 8 has the top bit of a field and 7 has the rest. -/
theorem valueMask_eq_or : valueMask = trcidr4 (cfgOfCounts largestCounts) ||| trcidr4 (cfgOfCounts sevensCounts) := by
  decide

/-- A bit is in the mask exactly when some implementation's value has it (R22). -/
theorem valueMask_getLsbD_iff (n : Nat) : valueMask.getLsbD n = true ↔ ∃ cfg : Cfg, (trcidr4 cfg).getLsbD n = true := by
  constructor
  · intro h
    rw [valueMask_eq_or, BitVec.getLsbD_or, Bool.or_eq_true] at h
    rcases h with h | h <;> exact ⟨_, h⟩
  · rintro ⟨cfg, h⟩
    rw [trcidr4, ← assemble_and_valueMask, BitVec.getLsbD_and, Bool.and_eq_true] at h
    exact h.2

/-- The largest value is that of the largest counts (R22). -/
theorem trcidr4_toNat_le (cfg : Cfg) : (trcidr4 cfg).toNat ≤ 0x888F8008 := by
  rw [trcidr4_toNat]
  omega

/-- Settles O1. -/
theorem valueIsTheWeightedSumOfTheCounts : Obligations.ValueIsTheWeightedSumOfTheCounts :=
  ⟨trcidr4_toNat, valueMask_getLsbD_iff, trcidr4_toNat_le, ⟨cfgOfCounts largestCounts, by decide⟩,
    ⟨cfgOfCounts ⟨0, 0, 0, 0, 0, 0⟩, by decide⟩⟩

/-- Settles O2. -/
theorem extractionAndAssemblyAreInverse : Obligations.ExtractionAndAssemblyAreInverse :=
  ⟨rawCountsOf_assemble, fun cfg => by rw [rawCountsOf_trcidr4, trcidr4]⟩

/-- No bit outside a mask is one exactly when the mask changes nothing. -/
theorem and_not_eq_zero_iff (v m : XWord) : v &&& ~~~m = 0#64 ↔ v &&& m = v := by
  constructor
  · intro h
    calc v &&& m = (v &&& m) ||| (v &&& ~~~m) := by rw [h, BitVec.or_zero]
      _ = v := by rw [← BitVec.and_or_distrib_left, BitVec.or_not_self, BitVec.and_allOnes]
  · intro h
    rw [← h, BitVec.and_assoc, BitVec.and_not_self]
    exact BitVec.and_zero

/-- The check of a 64-bit value in its two halves: the mask changes nothing, and the fields are well formed. -/
theorem isTrcidr4Value_iff (v : XWord) :
    isTrcidr4Value v = true ↔ v &&& valueMask = v ∧ (rawCountsOf v).WellFormed := by
  rw [isTrcidr4Value, Bool.and_eq_true, beq_iff_eq, beq_iff_eq, and_not_eq_zero_iff]

/-- Settles O3: a value in the mask is what its own fields assemble to. -/
theorem valueCheckAcceptsExactlyTheRegisterValues : Obligations.ValueCheckAcceptsExactlyTheRegisterValues := by
  intro v
  rw [isTrcidr4Value_iff]
  constructor
  · rintro ⟨hmask, hwf⟩
    obtain ⟨c, hc⟩ := (exists_counts_raw_eq_iff _).2 hwf
    exact ⟨cfgOfCounts c, by rw [trcidr4_cfgOfCounts, hc, assemble_rawCountsOf, hmask]⟩
  · rintro ⟨cfg, rfl⟩
    exact ⟨assemble_and_valueMask _, rawCountsOf_trcidr4 cfg ▸ cfg.counts.raw_wellFormed⟩

/-! ## The fields of the value and what they count -/

theorem rsPairCount_zero : rsPairCount 0#4 = 0 := rfl

theorem rsPairCount_of_ne_zero {f : BitVec 4} (h : f ≠ 0#4) : rsPairCount f = f.toNat + 1 := if_neg h

/-- NUMRSPAIR counts 0 to 16 pairs, but never one (R16). -/
theorem exists_rsPairCount_eq_iff (n : Nat) : (∃ f : BitVec 4, rsPairCount f = n) ↔ n ≤ 16 ∧ n ≠ 1 := by
  constructor
  · rintro ⟨f, rfl⟩
    by_cases hf : f = 0#4
    · subst hf; simp [rsPairCount_zero]
    · have hpos : f.toNat ≠ 0 := fun h => hf (BitVec.eq_of_toNat_eq h)
      rw [rsPairCount_of_ne_zero hf]
      omega
  · rintro ⟨hle, hne⟩
    rcases Nat.eq_zero_or_pos n with rfl | hpos
    · exact ⟨0#4, rsPairCount_zero⟩
    · have hval : (BitVec.ofNat 4 (n - 1)).toNat = n - 1 := by rw [BitVec.toNat_ofNat]; omega
      have hf : BitVec.ofNat 4 (n - 1) ≠ 0#4 := by
        intro h
        rw [h, BitVec.toNat_ofNat] at hval
        omega
      exact ⟨_, by rw [rsPairCount_of_ne_zero hf, hval]; omega⟩

/-- Settles O6. -/
theorem resourceSelectorPairsFollowTheCodedLaw : Obligations.ResourceSelectorPairsFollowTheCodedLaw :=
  ⟨fun cfg => congrArg RawCounts.numrspair (rawCountsOf_trcidr4 cfg), fun _ => rfl, exists_rsPairCount_eq_iff,
    fun f => ⟨cfgOfCounts ⟨0, 0, 0, f, 0, 0⟩, rfl⟩⟩

/-- A plain count is the field read as an unsigned integer, where that is at most 8 (R13). -/
theorem plainCount_eq_some_iff (f : BitVec 4) (n : Nat) : plainCount f = some n ↔ n = f.toNat ∧ n ≤ 8 := by
  unfold plainCount
  split
  · rw [Option.some.injEq]; omega
  · simp only [reduceCtorEq, false_iff]; omega

/-- The field of a well-formed count counts it. -/
theorem plainCount_ofNat (p : PlainCount) : plainCount (BitVec.ofNat 4 p.val) = some p.val := by
  rw [plainCount_eq_some_iff, plainCount_toNat]
  omega

/-- Settles O7: each extracted field is the configuration's own count. -/
theorem plainCountsStandInTheirBits : Obligations.PlainCountsStandInTheirBits := by
  refine ⟨fun cfg => ?_, plainCount_eq_some_iff⟩
  obtain ⟨h1, h2, h3, -, h5, h6⟩ := RawCounts.mk.inj (rawCountsOf_trcidr4 cfg)
  rw [h1, h2, h3, h5, h6]
  simp only [plainCount_ofNat, and_self]

/-- What a completed instruction leaves in its destination: the register's value, or the zero that XZR reads as. -/
theorem readX_rt_of_exec_next {i : Instr} {s s' : State} (h : exec i s = .next s') :
    s'.readX i.rt = 0#64 ∨ s'.readX i.rt = trcidr4 s.cfg := by
  obtain ⟨-, rfl⟩ := exec_next h
  by_cases ht : i.rt = 31#5
  · exact .inl (by rw [ht, State.readX_xzr])
  · exact .inr (s.readX_writeX_self i.rt _ ht)

/-- Settles O11: the register holds zero or an assembled value, and both are zero in the reserved fields. -/
theorem readReturnsZeroInReservedFields : Obligations.ReadReturnsZeroInReservedFields := by
  intro s s' t h
  have hx : s'.readX t = 0#64 ∨ s'.readX t = trcidr4 s.cfg := readX_rt_of_exec_next h
  rcases hx with hx | hx
  · rw [hx]
    decide
  · rw [hx]
    exact assemble_reserved_fields _

/-- SUPPDAC is zero in every implementation's value (R19). -/
theorem suppdacOf_trcidr4 (cfg : Cfg) : suppdacOf (trcidr4 cfg) = 0#1 := by
  obtain ⟨-, -, h, -⟩ := assemble_reserved_fields cfg.counts.raw
  exact h

/-- NUMDVC is zero in every implementation's value (R20). -/
theorem numdvcOf_trcidr4 (cfg : Cfg) : numdvcOf (trcidr4 cfg) = 0#4 := by
  obtain ⟨-, -, -, h⟩ := assemble_reserved_fields cfg.counts.raw
  exact h

/-- Settles O44. -/
theorem numdvcIsZeroAndCountsNone : Obligations.NumdvcIsZeroAndCountsNone := by
  refine ⟨fun cfg => ⟨numdvcOf_trcidr4 cfg, by rw [numdvcOf_trcidr4]; rfl⟩, fun f => ⟨?_, ?_⟩, fun f n h => ?_⟩
  · rintro ⟨cfg, rfl⟩
    exact numdvcOf_trcidr4 cfg
  · rintro rfl
    exact ⟨Cfg.atReset, numdvcOf_trcidr4 _⟩
  · unfold dvcCount at h
    split at h
    · exact (Option.some.inj h).symm
    · cases h

/-- The name of bit [8] follows the count of NUMACPAIRS (R19). -/
theorem bit8Name_trcidr4 (cfg : Cfg) :
    bit8Name (trcidr4 cfg) = if cfg.counts.numacpairs = 0 then .res0 else .suppdac := by
  have hzero : ∀ p : PlainCount, BitVec.ofNat 4 p.val = 0#4 ↔ p = 0 := by decide
  rw [bit8Name, rawCountsOf_trcidr4]
  exact if_congr (hzero _) rfl rfl

/-- Settles O8. -/
theorem bitEightIsNamedByNumacpairs : Obligations.BitEightIsNamedByNumacpairs := by
  intro cfg
  rw [bit8Name_trcidr4]
  by_cases h : cfg.counts.numacpairs = 0 <;> simp [h, suppdacOf_trcidr4]

end Sys2Proof.Machine
end

/-! # Proofs: the External view (20_memory.md)

A read through the External view is `ExtRead` in both of its forms, so one lemma says what a step does with it; the forms
differ in where the permission comes from. -/

section
namespace Sys2Proof.Machine

/-- A step whose access is an external read serves bits [31:0] of a present register to a permitted reader, and refuses
otherwise (R41). -/
theorem step_eq_of_fetch_extRead {s : State} {extOk : Bool} {rest : List Request}
    (h : fetch s = fetchExternal (extRead s.cfg extOk) rest s) :
    step s =
      if s.cfg.eteImplemented = true ∧ extOk = true then
        .next { s with extData := some ((trcidr4 s.cfg).extractLsb' 0 32), pending := rest }
      else .refused .externalReadRefused := by
  by_cases hserved : s.cfg.eteImplemented = true ∧ extOk = true
  · have hword : extRead s.cfg extOk = some (trcidr4Ext s.cfg) := by simp [extRead, hserved]
    rw [hword] at h
    rw [if_pos hserved, step, h]
    rfl
  · have hnone : extRead s.cfg extOk = none := by simp [extRead, hserved]
    rw [hnone] at h
    rw [if_neg hserved, step, h]
    rfl

/-- Settles O36. -/
theorem externalReadGivesTheLowWord : Obligations.ExternalReadGivesTheLowWord := by
  intro s extOk rest hp
  exact step_eq_of_fetch_extRead (by rw [fetch, hp])

/-- The permission of a `MemRead` is the platform's, at the register's address, at its width and aligned (R41, R44). -/
theorem extOkAt_eq_true_iff (cfg : Cfg) (base addr n : Nat) (permitted : Bool) :
    extOkAt cfg base addr n permitted = true ↔
      permitted = true ∧ addr = base + cfg.trcidr4ExtOffset ∧ n = 4 ∧ 4 ∣ addr := by
  simp only [extOkAt, Bool.and_eq_true, beq_iff_eq, Nat.dvd_iff_mod_eq_zero, and_assoc]

/-- Settles O37: a `MemRead` is the external read under the permission of its place and width. -/
theorem memReadIsServedAtOneAddressAndWidth : Obligations.MemReadIsServedAtOneAddressAndWidth := by
  intro s base addr n permitted rest hp
  have hfetch : fetch s = fetchExternal (extRead s.cfg (extOkAt s.cfg base addr n permitted)) rest s := by
    simp only [fetch, hp, extMemRead]
  simp only [step_eq_of_fetch_extRead hfetch, extOkAt_eq_true_iff]

end Sys2Proof.Machine
end

/-! # Proofs: encoding (30_encoding.md)

The access level and the word level each have one inversion lemma, `decodeAccess_eq_ok_iff` and `decodeWord_eq_ok_iff`: a
decoder answers an instruction exactly on what that instruction encodes to. -/

section
namespace Sys2Proof

/-! ## Decoded accesses (R50, R51, R57) -/

/-- An access names TRCIDR4 exactly when it differs from R50's in nothing but the direction and the register number. -/
theorem SysRegAccess.namesTrcidr4_iff (a : SysRegAccess) :
    a.namesTrcidr4 = true ↔ a = trcidr4Access a.read a.t := by
  cases a
  simp [SysRegAccess.namesTrcidr4, trcidr4Access, and_assoc]

@[simp] theorem decodeAccess_sysRegAccess (i : Instr) : decodeAccess i.sysRegAccess = .ok i := by
  cases i <;> rfl

/-- An access is one that an instruction makes, or it names another register and is answered `NotThisRegister` (R57). -/
theorem decodeAccess_cases (a : SysRegAccess) :
    (∃ i : Instr, a = i.sysRegAccess) ∨
    (a ≠ trcidr4Access a.read a.t ∧ decodeAccess a = .error (.notThisRegister a)) := by
  by_cases hnames : a.namesTrcidr4 = true
  · have ha := a.namesTrcidr4_iff.1 hnames
    left
    cases hread : a.read <;> rw [hread] at ha
    · exact ⟨.msrTrcidr4 a.t, ha⟩
    · exact ⟨.mrsTrcidr4 a.t, ha⟩
  · exact .inr ⟨mt a.namesTrcidr4_iff.2 hnames, if_neg hnames⟩

/-- An access decodes to an instruction exactly when it is the access that instruction makes. -/
theorem decodeAccess_eq_ok_iff (a : SysRegAccess) (i : Instr) : decodeAccess a = .ok i ↔ i.sysRegAccess = a := by
  constructor
  · intro h
    obtain ⟨j, rfl⟩ | ⟨-, herr⟩ := decodeAccess_cases a
    · rw [decodeAccess_sysRegAccess, Except.ok.injEq] at h
      rw [h]
    · cases herr.symm.trans h
  · rintro rfl
    exact decodeAccess_sysRegAccess i

/-- Settles O29. -/
theorem readOfTheRegisterIsTheFiveNumbers : Obligations.ReadOfTheRegisterIsTheFiveNumbers := by
  intro a t
  rw [decodeAccess_eq_ok_iff]
  cases a
  simp [Instr.sysRegAccess, trcidr4Access, BitVec.toNat_eq, eq_comm]

/-- Whether an access names TRCIDR4 does not depend on its register number. -/
theorem eq_trcidr4Access_iff (a : SysRegAccess) :
    a = trcidr4Access a.read a.t ↔ { a with t := 0 } = trcidr4Access a.read 0 := by
  cases a
  simp [trcidr4Access]

/-- Settles O30. -/
theorem everythingElseIsNotThisRegister : Obligations.EverythingElseIsNotThisRegister := by
  intro a
  rw [ne_eq, ← eq_trcidr4Access_iff]
  obtain ⟨i, rfl⟩ | ⟨hne, herr⟩ := decodeAccess_cases a
  · rw [decodeAccess_sysRegAccess]
    cases i with
    | mrsTrcidr4 t => exact ⟨iff_of_false nofun (not_not_intro rfl), .inl rfl⟩
    | msrTrcidr4 t => exact ⟨iff_of_false nofun (not_not_intro rfl), .inr (.inl rfl)⟩
  · exact ⟨iff_of_true herr hne, .inr (.inr herr)⟩

/-! ## Instruction words (R52) -/

/-- Where each bit of a word stands in the access it is made from (R52's table, from bit 0 up). -/
theorem SysRegAccess.word_getLsbD (a : SysRegAccess) (n : Nat) : a.word.getLsbD n =
    if n < 5 then a.t.getLsbD n
    else if n < 8 then a.op2.getLsbD (n - 5)
    else if n < 12 then a.crm.getLsbD (n - 8)
    else if n < 16 then a.crn.getLsbD (n - 12)
    else if n < 19 then a.op1.getLsbD (n - 16)
    else if n < 21 then a.op0.getLsbD (n - 19)
    else if n < 22 then a.read
    else moveOpcode.getLsbD (n - 22) := by
  simp only [SysRegAccess.word, BitVec.getLsbD_append]
  grind

/-- The fields of a word made from an access are the access. -/
theorem accessOfWord_word (a : SysRegAccess) : accessOfWord a.word = a := by
  cases a
  unfold accessOfWord
  congr 1
  case e_read => exact SysRegAccess.word_getLsbD _ 21
  all_goals
    apply BitVec.eq_of_getLsbD_eq
    intro n hn
    rw [BitVec.getLsbD_extractLsb', SysRegAccess.word_getLsbD]
    grind

/-- Bits [31:22] of the word of an access are those of every system register move. -/
theorem extractLsb'_word_opcode (a : SysRegAccess) : a.word.extractLsb' 22 10 = moveOpcode := by
  apply BitVec.eq_of_getLsbD_eq
  intro n hn
  rw [BitVec.getLsbD_extractLsb', SysRegAccess.word_getLsbD]
  grind

/-- The word of an access is a system register move exactly when bit 1 of op0, the word's bit [20], is one. -/
theorem isSystemRegisterMove_word (a : SysRegAccess) : isSystemRegisterMove a.word = a.op0.getLsbD 1 := by
  rw [isSystemRegisterMove, extractLsb'_word_opcode, beq_self_eq_true, Bool.true_and]
  exact a.word_getLsbD 20

/-- A system register move is the word of its own fields. -/
theorem word_accessOfWord {w : Word} (h : isSystemRegisterMove w = true) : (accessOfWord w).word = w := by
  rw [isSystemRegisterMove, Bool.and_eq_true, beq_iff_eq] at h
  obtain ⟨hopcode, -⟩ := h
  apply BitVec.eq_of_getLsbD_eq
  intro n hn
  simp only [SysRegAccess.word_getLsbD, accessOfWord, ← hopcode, BitVec.getLsbD_extractLsb']
  grind

/-- Every instruction accesses a register whose op0 is 0b10 (R50). -/
theorem sysRegAccess_op0 (i : Instr) : i.sysRegAccess.op0 = 0b10#2 := by
  cases i <;> rfl

/-- Every instruction encodes to a word that decodes to it. -/
theorem decodeWord_encode (i : Instr) : decodeWord (encode i) = .ok i := by
  have hmove : isSystemRegisterMove (encode i) = true := by
    rw [encode, isSystemRegisterMove_word, sysRegAccess_op0]
    decide
  rw [decodeWord, if_pos hmove, encode, accessOfWord_word, decodeAccess_sysRegAccess]

/-- A word decodes to an instruction exactly when it is that instruction's encoding. -/
theorem decodeWord_eq_ok_iff (w : Word) (i : Instr) : decodeWord w = .ok i ↔ encode i = w := by
  constructor
  · intro h
    by_cases hmove : isSystemRegisterMove w = true
    · rw [decodeWord, if_pos hmove, decodeAccess_eq_ok_iff] at h
      rw [encode, h, word_accessOfWord hmove]
    · rw [decodeWord, if_neg hmove] at h
      cases h
  · rintro rfl
    exact decodeWord_encode i

/-! ## Bytes (R52) -/

/-- The four bytes of a word make the word again. -/
theorem wordOfBytes_bytes (w : Word) :
    wordOfBytes (w.extractLsb' 0 8) (w.extractLsb' 8 8) (w.extractLsb' 16 8) (w.extractLsb' 24 8) = w := by
  apply BitVec.eq_of_getLsbD_eq
  intro n hn
  simp only [wordOfBytes, BitVec.getLsbD_append, BitVec.getLsbD_extractLsb']
  grind

/-- The decoder on bytes reads an instruction's encoding and leaves the bytes after it. -/
theorem decodeBytes_encodeBytes_append (i : Instr) (rest : List Byte) :
    decodeBytes (encodeBytes i ++ rest) = .ok (i, rest) := by
  simp only [encodeBytes, bytesOfWord, List.cons_append, List.nil_append, decodeBytes, wordOfBytes_bytes, decodeWord_encode]

/-- Settles O31. -/
theorem decodeAndEncodeAgree : Obligations.DecodeAndEncodeAgree :=
  ⟨decodeWord_encode, fun w i => (decodeWord_eq_ok_iff w i).1, decodeBytes_encodeBytes_append⟩

/-! ## The opcode table (R52, R55) -/

/-- Every instruction's encoding matches its row, and its low five bits are its register number. -/
theorem encode_matches_row (i : Instr) : Laws.TableRow.Statement i := by
  cases i with
  | mrsTrcidr4 t => exact Laws.TableRow.mrsTrcidr4 t
  | msrTrcidr4 t => exact Laws.TableRow.msrTrcidr4 t

/-- The rows' mask leaves out bits [4:0] and nothing else. -/
theorem rowMask_getLsbD : ∀ n < 32, (0xFFFFFFE0#32).getLsbD n = decide (5 ≤ n) := by
  decide

/-- Two words that agree under the rows' mask and in bits [4:0] are the same. -/
theorem eq_of_and_rowMask_eq {v w : Word} (hmask : v &&& 0xFFFFFFE0#32 = w &&& 0xFFFFFFE0#32)
    (hlow : v.extractLsb' 0 5 = w.extractLsb' 0 5) : v = w := by
  apply BitVec.eq_of_getLsbD_eq
  intro n hn
  by_cases h5 : 5 ≤ n
  · have hbit := congrArg (BitVec.getLsbD · n) hmask
    simpa [rowMask_getLsbD n hn, h5] using hbit
  · have hbit := congrArg (BitVec.getLsbD · n) hlow
    simpa [show n < 5 by omega] using hbit

/-- A word decodes to an instruction exactly when it matches the instruction's row and holds its register number. -/
theorem decodeWord_eq_ok_iff_row (w : Word) (i : Instr) :
    decodeWord w = .ok i ↔ w &&& 0xFFFFFFE0#32 = Laws.TableRow.matchBits i ∧ w.extractLsb' 0 5 = i.rt := by
  obtain ⟨hmask, hlow⟩ := encode_matches_row i
  rw [decodeWord_eq_ok_iff]
  constructor
  · rintro rfl
    exact ⟨hmask, hlow⟩
  · rintro ⟨hwmask, hwlow⟩
    exact eq_of_and_rowMask_eq (hmask.trans hwmask.symm) (hlow.trans hwlow.symm)

/-- Settles O32. -/
theorem wordsMatchTheOpcodeTable : Obligations.WordsMatchTheOpcodeTable := fun w =>
  ⟨fun t => decodeWord_eq_ok_iff_row w (.mrsTrcidr4 t), fun t => decodeWord_eq_ok_iff_row w (.msrTrcidr4 t)⟩

/-- Settles O33: the first four words are encodings, and the last names another register. -/
theorem sampleWordsDecode : Obligations.SampleWordsDecode :=
  ⟨decodeWord_encode (.mrsTrcidr4 0), decodeWord_encode (.mrsTrcidr4 30), decodeWord_encode (.mrsTrcidr4 31),
    decodeWord_encode (.msrTrcidr4 0), by decide⟩

end Sys2Proof
end

section
namespace Sys2Proof.Machine

/-! ## What a step refuses -/

/-- A step whose access is stopped is refused with the reason it is stopped for. -/
theorem step_of_fetch_stop {s : State} {r : Refusal} (h : fetch s = .stop r) : step s = .refused r := by
  rw [step, h]

/-- A word or access that decodes to no instruction stops the run under the decoder's own reason. -/
theorem fetchInstr_error (e : Reject) (ctx : Ctx) (rest : List Request) (s : State) :
    fetchInstr (.error e) ctx rest s = .stop (.notThisHardware e) := rfl

/-- Settles O35. -/
theorem stepRefusesEverythingElseByName : Obligations.StepRefusesEverythingElseByName := by
  intro s ctx rest e
  refine ⟨fun w hp hd => ?_, fun a hp hd => ?_, fun v hp => ?_, fun hp => ?_⟩ <;> apply step_of_fetch_stop
  · simp only [fetch, hp, hd, fetchInstr_error]
  · simp only [fetch, hp, hd, fetchInstr_error]
  · simp only [fetch, hp]
  · simp only [fetch, hp]

end Sys2Proof.Machine
end

/-! # Proofs: reading the register (40_sysreg_access.md)

The chain is unfolded once, into `access_eq`: one list of conditions in the terms of R111 and R100, for all Exception levels. From
it comes one characterisation per outcome (the value, Undefined, a trap to each level), and from those the statements. -/

section
namespace Sys2Proof.Machine

/-! ## The chain as one list of conditions -/

/-- R63's and R70's condition. -/
theorem sddPrioritised_iff (cfg : Cfg) (c : Ctx) : sddPrioritised cfg c = true ↔ debugOutranks cfg c := by
  simp only [sddPrioritised, Bool.and_eq_true, Bool.not_eq_true']
  tauto

theorem el3Traps_iff (cfg : Cfg) (c : Ctx) : el3Traps cfg c = true ↔ el3Stops cfg c := by
  simp only [el3Traps, Bool.and_eq_true, Bool.not_eq_true', and_assoc]

/-- EL2 stops an access from EL1 by R65's condition or by R66's. -/
theorem el2StopsEl1_iff (cfg : Cfg) (c : Ctx) : el2StopsEl1 cfg c ↔
    (el2TrapsEl1 c && c.cptrEl2Tta) = true ∨ (el2TrapsEl1 c && fineGrainedInForce cfg c && c.hdfgrtrTrcid) = true := by
  simp only [el2TrapsEl1, fineGrainedInForce, Bool.and_eq_true, Bool.or_eq_true, Bool.not_eq_true']
  tauto

/-- The chain at EL1 (R63 to R69). -/
theorem outcome_armAtEl1 (cfg : Cfg) (c : Ctx) : (armAtEl1 cfg c).outcome cfg =
    if debugOutranks cfg c then .undefined
    else if c.cpacrTta then .trap .el1 trapEc
    else if el2StopsEl1 cfg c then .trap .el2 trapEc
    else if debugHidesEl3Trap cfg c then .undefined
    else if el3Stops cfg c then .trap .el3 trapEc
    else .value (trcidr4 cfg) := by
  simp only [← sddPrioritised_iff, el2StopsEl1_iff, debugHidesEl3Trap, ← el3Traps_iff, armAtEl1]
  grind [Arm.outcome]

/-- The chain at EL2 (R70 to R74). -/
theorem outcome_armAtEl2 (cfg : Cfg) (c : Ctx) : (armAtEl2 cfg c).outcome cfg =
    if debugOutranks cfg c then .undefined
    else if c.cptrEl2Tta then .trap .el2 trapEc
    else if debugHidesEl3Trap cfg c then .undefined
    else if el3Stops cfg c then .trap .el3 trapEc
    else .value (trcidr4 cfg) := by
  simp only [← sddPrioritised_iff, debugHidesEl3Trap, ← el3Traps_iff, armAtEl2]
  grind [Arm.outcome]

/-- The chain at EL3 (R75, R76). -/
theorem outcome_armAtEl3 (cfg : Cfg) (c : Ctx) : (armAtEl3 c).outcome cfg =
    if c.cptrEl3Tta then .trap .el3 trapEc else .value (trcidr4 cfg) := by
  unfold armAtEl3
  split <;> rfl

/-- The whole chain (R61 to R76). -/
theorem access_eq (cfg : Cfg) (c : Ctx) : access cfg c =
    if cfg.eteImplemented = false ∨ c.el = .el0 then .undefined
    else if c.el = .el3 then if c.cptrEl3Tta then .trap .el3 trapEc else .value (trcidr4 cfg)
    else if debugOutranks cfg c then .undefined
    else if c.el = .el1 ∧ c.cpacrTta then .trap .el1 trapEc
    else if c.el = .el1 ∧ el2StopsEl1 cfg c ∨ c.el = .el2 ∧ c.cptrEl2Tta then .trap .el2 trapEc
    else if debugHidesEl3Trap cfg c then .undefined
    else if el3Stops cfg c then .trap .el3 trapEc
    else .value (trcidr4 cfg) := by
  unfold access arm
  cases h : cfg.eteImplemented
  · simp [Arm.outcome]
  cases hel : c.el with
  | el0 => simp [Arm.outcome]
  | el1 => simp [outcome_armAtEl1]
  | el2 => simp [outcome_armAtEl2]
  | el3 => simp [outcome_armAtEl3]

/-- Where Debug state does not hide the EL3 trap, presence and EL0 alone give `Undefined` (R84 item 3). -/
theorem access_eq_of_not_debugHidesEl3Trap {cfg : Cfg} {c : Ctx} (h : ¬ debugHidesEl3Trap cfg c) : access cfg c =
    if cfg.eteImplemented = false ∨ c.el = .el0 then .undefined
    else if c.el = .el3 then if c.cptrEl3Tta then .trap .el3 trapEc else .value (trcidr4 cfg)
    else if c.el = .el1 ∧ c.cpacrTta then .trap .el1 trapEc
    else if c.el = .el1 ∧ el2StopsEl1 cfg c ∨ c.el = .el2 ∧ c.cptrEl2Tta then .trap .el2 trapEc
    else if el3Stops cfg c then .trap .el3 trapEc
    else .value (trcidr4 cfg) := by
  simp only [access_eq, debugOutranks, h, false_and, if_false]

/-- Where EL3 stops nothing below it, only the traps to EL1 and EL2 are left there. -/
theorem access_eq_of_not_el3Stops {cfg : Cfg} {c : Ctx} (h : ¬ el3Stops cfg c) : access cfg c =
    if cfg.eteImplemented = false ∨ c.el = .el0 then .undefined
    else if c.el = .el3 then if c.cptrEl3Tta then .trap .el3 trapEc else .value (trcidr4 cfg)
    else if c.el = .el1 ∧ c.cpacrTta then .trap .el1 trapEc
    else if c.el = .el1 ∧ el2StopsEl1 cfg c ∨ c.el = .el2 ∧ c.cptrEl2Tta then .trap .el2 trapEc
    else .value (trcidr4 cfg) := by
  rw [access_eq_of_not_debugHidesEl3Trap fun hhides => h hhides.1, if_neg h]

theorem not_debugHidesEl3Trap_of_running {cfg : Cfg} {c : Ctx} (h : c.halted = false) : ¬ debugHidesEl3Trap cfg c := by
  simp [debugHidesEl3Trap, h]

theorem not_el3Stops_of_absent {cfg : Cfg} {c : Ctx} (h : cfg.haveEL3 = false) : ¬ el3Stops cfg c := by
  simp [el3Stops, h]

theorem not_el3Stops_of_clear {cfg : Cfg} {c : Ctx} (h : c.cptrEl3Tta = false) : ¬ el3Stops cfg c := by
  simp [el3Stops, h]

/-! ## When each outcome arises -/

/-- The chain answers the value exactly under R111's preconditions. -/
theorem access_eq_value_iff (cfg : Cfg) (c : Ctx) : access cfg c = .value (trcidr4 cfg) ↔ ReadPermitted cfg c := by
  rw [access_eq]
  cases hel : c.el <;> grind

theorem access_eq_undefined_iff (cfg : Cfg) (c : Ctx) : access cfg c = .undefined ↔
    cfg.eteImplemented = false ∨ c.el = .el0 ∨
      (c.el = .el1 ∧ debugHidesEl3Trap cfg c ∧
        (cfg.el3TrapPriorityWhenSdd = true ∨ c.cpacrTta = false ∧ ¬ el2StopsEl1 cfg c)) ∨
      (c.el = .el2 ∧ debugHidesEl3Trap cfg c ∧ (cfg.el3TrapPriorityWhenSdd = true ∨ c.cptrEl2Tta = false)) := by
  rw [access_eq]
  cases hel : c.el <;> grind

theorem access_eq_trap_el1_iff (cfg : Cfg) (c : Ctx) : access cfg c = .trap .el1 trapEc ↔
    cfg.eteImplemented = true ∧ c.el = .el1 ∧ ¬ debugOutranks cfg c ∧ c.cpacrTta = true := by
  rw [access_eq]
  cases hel : c.el <;> grind

theorem access_eq_trap_el2_iff (cfg : Cfg) (c : Ctx) : access cfg c = .trap .el2 trapEc ↔
    cfg.eteImplemented = true ∧ ¬ debugOutranks cfg c ∧
      (c.el = .el1 ∧ c.cpacrTta = false ∧ el2StopsEl1 cfg c ∨ c.el = .el2 ∧ c.cptrEl2Tta = true) := by
  rw [access_eq]
  cases hel : c.el <;> grind

theorem access_eq_trap_el3_iff (cfg : Cfg) (c : Ctx) : access cfg c = .trap .el3 trapEc ↔
    cfg.eteImplemented = true ∧
      ((c.el = .el1 ∧ c.cpacrTta = false ∧ ¬ el2StopsEl1 cfg c ∧ el3Stops cfg c ∧ ¬ (c.halted = true ∧ c.sdd = true)) ∨
       (c.el = .el2 ∧ c.cptrEl2Tta = false ∧ el3Stops cfg c ∧ ¬ (c.halted = true ∧ c.sdd = true)) ∨
       (c.el = .el3 ∧ c.cptrEl3Tta = true)) := by
  rw [access_eq]
  cases hel : c.el <;> grind

/-- Every trap of the chain has the one code (60_exceptions.md R92). -/
theorem access_trap_ec {cfg : Cfg} {c : Ctx} {target : TrapTarget} {ec : BitVec 6} (h : access cfg c = .trap target ec) :
    ec = trapEc := by
  obtain ⟨hec, -⟩ := (outcome_trap_iff cfg (arm cfg c) target ec).1 h
  exact hec.symm

/-! ## The read as an instruction -/

theorem exec_mrsTrcidr4 (t : RegNum) (s : State) : exec (.mrsTrcidr4 t) s = execMrsTrcidr4 t s := rfl

/-- A read completes exactly under R111's preconditions, and is then the write of the register's value. -/
theorem exec_mrs_next_iff (t : RegNum) (s s' : State) :
    exec (.mrsTrcidr4 t) s = .next s' ↔ ReadPermitted s.cfg s.ctx ∧ s.writeX t (trcidr4 s.cfg) = s' := by
  rw [exec_mrsTrcidr4, execMrs_next_iff, ← access_eq_value_iff]
  constructor
  · rintro ⟨v, hv, hs⟩
    obtain ⟨-, rfl⟩ := access_value hv
    exact ⟨hv, hs⟩
  · rintro ⟨hv, hs⟩
    exact ⟨_, hv, hs⟩

theorem exec_mrs_undefined_iff (t : RegNum) (s : State) :
    exec (.mrsTrcidr4 t) s = .fault (.undefined (.mrsTrcidr4 t)) ↔ access s.cfg s.ctx = .undefined :=
  execMrs_undefined_iff t s

/-- A trap that a read raises is the chain's, and names the read. -/
theorem exec_mrs_trap_iff (t : RegNum) (s : State) (target : TrapTarget) (ec : BitVec 6) (i : Instr) :
    exec (.mrsTrcidr4 t) s = .fault (.systemAccessTrap target ec i) ↔
      access s.cfg s.ctx = .trap target ec ∧ i = .mrsTrcidr4 t := by
  rw [exec_mrsTrcidr4, execMrsTrcidr4]
  cases access s.cfg s.ctx <;>
    simp [conclude, raiseUndefined, raiseSystemAccessTrap, and_assoc, eq_comm (a := i)]

/-- Settles O9: the read is one register write, and what it leaves is that write's. -/
theorem permittedReadWritesTheValue : Obligations.PermittedReadWritesTheValue := by
  intro s t hpermitted
  refine ⟨_, (exec_mrs_next_iff t s _).2 ⟨hpermitted, rfl⟩, s.readX_writeX_self t _, ?_, fun u => s.readX_writeX_ne t u _, by simp⟩
  rintro rfl
  exact s.writeX_xzr _

/-- Settles O12: absence is the first of Undefined's conditions. -/
theorem absentRegisterIsUndefined : Obligations.AbsentRegisterIsUndefined := fun s t h =>
  (exec_mrs_undefined_iff t s).2 ((access_eq_undefined_iff _ _).2 (.inl h))

/-- Settles O13: EL0 is Undefined with the register present or absent. -/
theorem readAtEl0IsUndefined : Obligations.ReadAtEl0IsUndefined := fun s t h =>
  (exec_mrs_undefined_iff t s).2 ((access_eq_undefined_iff _ _).2 (.inr (.inl h)))

/-- Settles O19: the write form consults neither the configuration nor the context. -/
theorem writeFormIsUndefined : Obligations.WriteFormIsUndefined := fun _ _ => rfl

/-- Settles O14: Undefined's own conditions, the absent register left out. -/
theorem presentRegisterIsUndefinedExactlyThere : Obligations.PresentRegisterIsUndefinedExactlyThere := by
  intro s t hpresent
  rw [exec_mrs_undefined_iff, access_eq_undefined_iff, hpresent]
  exact or_iff_right nofun

/-- Settles O15: R64's condition is the only one that traps to EL1. -/
theorem trapToEl1ExactlyByCpacr : Obligations.TrapToEl1ExactlyByCpacr := by
  intro s t hpresent
  rw [exec_mrs_trap_iff, and_iff_left rfl]
  exact (access_eq_trap_el1_iff _ _).trans (and_iff_right hpresent)

/-- Settles O16: the traps to EL2 are R65's, R66's and R71's. -/
theorem trapToEl2ExactlyByItsControls : Obligations.TrapToEl2ExactlyByItsControls := by
  intro s t hpresent
  rw [exec_mrs_trap_iff, and_iff_left rfl]
  exact (access_eq_trap_el2_iff _ _).trans (and_iff_right hpresent)

/-- Settles O17: the traps to EL3 are R68's, R73's and R75's. -/
theorem trapToEl3ExactlyByItsControl : Obligations.TrapToEl3ExactlyByItsControl := by
  intro s t hpresent
  rw [exec_mrs_trap_iff, and_iff_left rfl]
  exact (access_eq_trap_el3_iff _ _).trans (and_iff_right hpresent)

/-- Settles O23: each target's own condition names the levels it arises at. -/
theorem trapNeverTargetsALowerLevel : Obligations.TrapNeverTargetsALowerLevel := by
  intro s t target ec i h
  obtain ⟨htrap, hi⟩ := (exec_mrs_trap_iff t s target ec i).1 h
  obtain rfl := access_trap_ec htrap
  refine ⟨rfl, hi, ?_⟩
  cases target with
  | el1 =>
    obtain ⟨-, hel, -⟩ := (access_eq_trap_el1_iff _ _).1 htrap
    exact hel
  | el2 =>
    obtain ⟨-, -, hel⟩ := (access_eq_trap_el2_iff _ _).1 htrap
    exact hel.imp And.left And.left
  | el3 =>
    obtain ⟨-, hel⟩ := (access_eq_trap_el3_iff _ _).1 htrap
    exact hel.imp And.left (Or.imp And.left And.left)

/-! ## What the outcome does not depend on -/

/-- Settles O21: each outcome is a condition on the configuration and the context. -/
theorem outcomeIgnoresEverythingButCfgAndCtx : Obligations.OutcomeIgnoresEverythingButCfgAndCtx := by
  intro s1 s2 t u hcfg hctx
  refine ⟨?_, fun s1' s2' h1 h2 ht hu => ?_, ?_, fun target ec => ?_⟩
  · simp only [exec_mrs_next_iff, hcfg, hctx, exists_and_left, exists_eq', and_true]
  · obtain ⟨-, rfl⟩ := (exec_mrs_next_iff ..).1 h1
    obtain ⟨-, rfl⟩ := (exec_mrs_next_iff ..).1 h2
    rw [s1.readX_writeX_self t _ ht, s2.readX_writeX_self u _ hu, hcfg]
  · rw [exec_mrs_undefined_iff, exec_mrs_undefined_iff, hcfg, hctx]
  · simp only [exec_mrs_trap_iff, hcfg, hctx, and_true]

/-- Settles O22: the first read leaves the preconditions and the register's value as they were. -/
theorem repeatedReadsAgree : Obligations.RepeatedReadsAgree := by
  intro s s1 t u h
  obtain ⟨hpermitted, rfl⟩ := (exec_mrs_next_iff ..).1 h
  refine ⟨_, (exec_mrs_next_iff ..).2 ⟨by simpa using hpermitted, rfl⟩, fun ht hu => ?_⟩
  have hfirst : (s.writeX t (trcidr4 s.cfg)).readX t = trcidr4 s.cfg := s.readX_writeX_self t _ ht
  rw [State.writeX_cfg, State.readX_writeX_self _ u _ hu, hfirst]
  by_cases htu : t = u
  · subst htu
    exact ⟨rfl, State.readX_writeX_self _ t _ ht⟩
  · exact ⟨rfl, (State.readX_writeX_ne _ u t _ htu).trans hfirst⟩

/-- Settles O24: R111's preconditions do not mention the three inputs. -/
theorem debugStateNeverDecidesSuccess : Obligations.DebugStateNeverDecidesSuccess := fun cfg c halted sdd prio =>
  (access_eq_value_iff cfg c).trans
    (access_eq_value_iff { cfg with el3TrapPriorityWhenSdd := prio } { c with halted := halted, sdd := sdd }).symm

/-- Settles O26: every condition with `EDSCR.SDD` or the priority Boolean in it needs Debug state. -/
theorem outsideDebugStateOnlyAbsenceAndEl0AreUndefined : Obligations.OutsideDebugStateOnlyAbsenceAndEl0AreUndefined := by
  intro cfg c hhalted
  refine ⟨fun sdd prio => ?_, ?_⟩
  · rw [access_eq_of_not_debugHidesEl3Trap, access_eq_of_not_debugHidesEl3Trap (not_debugHidesEl3Trap_of_running hhalted)]
    · rfl
    · exact not_debugHidesEl3Trap_of_running hhalted
  · simp only [access_eq_undefined_iff, not_debugHidesEl3Trap_of_running hhalted, false_and, and_false, or_false]

/-! ## Where EL3 is absent (R84 item 1) -/

section
variable {cfg : Cfg} {c : Ctx}

theorem access_of_el1_without_el3 (hpresent : cfg.eteImplemented = true) (hel3 : cfg.haveEL3 = false)
    (hel : c.el = .el1) : access cfg c =
    if c.cpacrTta then .trap .el1 trapEc
    else if c.el2Enabled ∧ c.el2IsA32 = false ∧ (c.cptrEl2Tta ∨ c.hdfgrtrTrcid) then .trap .el2 trapEc
    else .value (trcidr4 cfg) := by
  simp [access_eq_of_not_el3Stops (not_el3Stops_of_absent hel3), hpresent, hel, el2StopsEl1, hel3]

theorem access_of_el2_without_el3 (hpresent : cfg.eteImplemented = true) (hel3 : cfg.haveEL3 = false)
    (hel : c.el = .el2) : access cfg c =
    if c.cptrEl2Tta then .trap .el2 trapEc else .value (trcidr4 cfg) := by
  simp [access_eq_of_not_el3Stops (not_el3Stops_of_absent hel3), hpresent, hel]

/-- `SCR_EL3.FGTEn` is never read. -/
theorem access_fgtEn_without_el3 (hel3 : cfg.haveEL3 = false) (b : Bool) :
    access cfg { c with fgtEn := b } = access cfg c := by
  rw [access_eq_of_not_el3Stops (not_el3Stops_of_absent hel3), access_eq_of_not_el3Stops (not_el3Stops_of_absent hel3)]
  simp only [el2StopsEl1, hel3, true_or]

end

/-- Settles O27. -/
theorem withoutEl3TheChainReduces : Obligations.WithoutEl3TheChainReduces := fun _ _ hpresent hel3 =>
  ⟨access_of_el1_without_el3 hpresent hel3, access_of_el2_without_el3 hpresent hel3, access_fgtEn_without_el3 hel3⟩

/-! ## Where controls are clear (R84 items 2, 4 and 5) -/

theorem access_ne_trap_el2_of_el2_disabled {cfg : Cfg} {c : Ctx} (hel2 : c.el2Enabled = false) (hel : c.el = .el1) :
    access cfg c ≠ .trap .el2 trapEc := by
  rw [ne_eq, access_eq_trap_el2_iff]
  simp [hel2, hel]

theorem access_ne_trap_el3_of_cptrEl3_clear {cfg : Cfg} {c : Ctx} (hcptr : c.cptrEl3Tta = false) :
    access cfg c ≠ .trap .el3 trapEc := by
  rw [ne_eq, access_eq_trap_el3_iff]
  simp [hcptr]

/-- Every condition with Debug state, SDD, the priority Boolean or EL3's execution state in it needs `CPTR_EL3.TTA`. -/
theorem access_debug_of_cptrEl3_clear {cfg : Cfg} {c : Ctx} (hcptr : c.cptrEl3Tta = false) (halted sdd el3IsA32 prio : Bool) :
    access { cfg with el3TrapPriorityWhenSdd := prio }
      { c with halted := halted, sdd := sdd, el3IsA32 := el3IsA32 } = access cfg c := by
  rw [access_eq_of_not_el3Stops, access_eq_of_not_el3Stops (not_el3Stops_of_clear hcptr)]
  · rfl
  · exact not_el3Stops_of_clear hcptr

theorem access_of_controls_clear {cfg : Cfg} {c : Ctx} (hpresent : cfg.eteImplemented = true) (hcpacr : c.cpacrTta = false)
    (hcptr2 : c.cptrEl2Tta = false) (hcptr3 : c.cptrEl3Tta = false) (hfine : c.hdfgrtrTrcid = false) :
    access cfg c = if c.el = .el0 then .undefined else .value (trcidr4 cfg) := by
  simp [access_eq_of_not_el3Stops (not_el3Stops_of_clear hcptr3), hpresent, hcpacr, hcptr2, hcptr3, hfine, el2StopsEl1]

/-- Settles O28. -/
theorem clearControlsRemoveTheirArms : Obligations.ClearControlsRemoveTheirArms := fun _ _ =>
  ⟨access_ne_trap_el2_of_el2_disabled,
    fun hcptr => ⟨access_ne_trap_el3_of_cptrEl3_clear hcptr, access_debug_of_cptrEl3_clear hcptr⟩,
    access_of_controls_clear⟩

/-! ## The two views agree (R83) -/

/-- An external read that is served, in either form, gives its reader the low word of the register's value. -/
theorem extData_of_step_external {s s' : State} {q : Request} {rest : List Request} (hq : q.isExternalRead = true)
    (hp : s.pending = q :: rest) (h : step s = .next s') : s'.extData = some (trcidr4Ext s.cfg) := by
  rcases step_next h with ⟨i, s1, -, hfetch, -⟩ | ⟨w, s1, hfetch, rfl⟩
  · obtain ⟨ctx, rest', -, ⟨a, hp', -⟩ | ⟨w, hp', -⟩⟩ := fetch_run hfetch <;>
      (rw [hp'] at hp; cases hp; cases hq)
  · obtain ⟨-, rfl, -⟩ := fetch_external hfetch
    rfl

/-- Settles O38: either view gives the register's value, and no step between them changes it. -/
theorem externalAndDirectReadsAgree : Obligations.ExternalAndDirectReadsAgree := by
  intro s s1 s2 s3 n q rest t hq ht
  refine ⟨fun hp hstep hrun ctx hexec => ?_, fun hexec hrun hp hstep => ?_⟩
  · obtain ⟨hreached, -⟩ := step_next_reachedFrom hstep
    obtain ⟨hreached', -⟩ := runsNeverChangeTheRegister n s1 s2 hrun
    obtain ⟨-, rfl⟩ := (exec_mrs_next_iff ..).1 hexec
    rw [extData_of_step_external hq hp hstep, State.readX_writeX_self _ t _ ht]
    show some (trcidr4Ext s.cfg) = some (trcidr4Ext s2.cfg)
    rw [hreached'.cfg_eq, hreached.cfg_eq]
  · obtain ⟨-, rfl⟩ := (exec_mrs_next_iff ..).1 hexec
    obtain ⟨hreached, -⟩ := runsNeverChangeTheRegister n _ s2 hrun
    rw [extData_of_step_external hq hp hstep, hreached.cfg_eq, State.writeX_cfg, s.readX_writeX_self t _ ht]
    rfl

end Sys2Proof.Machine
end

/-! # Proofs: the exceptional outcomes (60_exceptions.md)

A read's outcome is the chain's outcome, case by case; and where Debug state can matter at all in the chain, it does so by hiding
the EL3 trap from EL1 or EL2. -/

section
namespace Sys2Proof.Machine

/-- Settles O18: each outcome of the chain is one of the five, a value being the register's own and a trap's code 0x18. -/
theorem readEndsInOneOfFiveOutcomes : Obligations.ReadEndsInOneOfFiveOutcomes := by
  intro s t
  cases h : access s.cfg s.ctx with
  | value v =>
    obtain ⟨-, rfl⟩ := access_value h
    exact .inl ((execMrs_next_iff ..).2 ⟨_, h, rfl⟩)
  | undefined => exact .inr (.inl ((exec_mrs_undefined_iff t s).2 h))
  | trap target ec =>
    obtain rfl := access_trap_ec h
    have htrap := (exec_mrs_trap_iff t s target trapEc (.mrsTrcidr4 t)).2 ⟨h, rfl⟩
    cases target with
    | el1 => exact .inr (.inr (.inl htrap))
    | el2 => exact .inr (.inr (.inr (.inl htrap)))
    | el3 => exact .inr (.inr (.inr (.inr htrap)))

/-- The chains of EL0 and EL3 (R62, R75, R76) never read Debug state. -/
theorem access_halted_of_not_el1_el2 {cfg : Cfg} {c : Ctx} (hel : ¬ (c.el = .el1 ∨ c.el = .el2)) (halted : Bool) :
    access cfg { c with halted := halted } = access cfg c := by
  rw [access_eq, access_eq]
  cases hlevel : c.el with
  | el0 => simp only [or_true, if_true]
  | el1 => exact absurd (.inl hlevel) hel
  | el2 => exact absurd (.inr hlevel) hel
  | el3 => simp only [if_true]

/-- Without the EL3 trap or without SDD there is nothing that Debug state could hide. -/
theorem access_halted_of_not_el3Stops_sdd {cfg : Cfg} {c : Ctx} (h : ¬ (el3Stops cfg c ∧ c.sdd = true)) (halted : Bool) :
    access cfg { c with halted := halted } = access cfg c := by
  have hhides (b : Bool) : ¬ debugHidesEl3Trap cfg { c with halted := b } := fun ⟨hstops, _, hsdd⟩ => h ⟨hstops, hsdd⟩
  rw [access_eq_of_not_debugHidesEl3Trap (hhides halted), access_eq_of_not_debugHidesEl3Trap (hhides c.halted)]

/-- Settles O25: one of the situation's two halves fails, and either failing takes Debug state out of the chain. -/
theorem debugStateMattersInOneSituationOnly : Obligations.DebugStateMattersInOneSituationOnly := by
  intro cfg c hother
  have hnotRead (halted : Bool) : access cfg { c with halted := halted } = access cfg c := by
    by_cases hel : c.el = .el1 ∨ c.el = .el2
    · exact access_halted_of_not_el3Stops_sdd (fun h => hother ⟨hel, h⟩) halted
    · exact access_halted_of_not_el1_el2 hel halted
  rw [hnotRead true, hnotRead false]

end Sys2Proof.Machine
end

/-! # Proofs: preconditions, agents and the end of a run (70_reset_and_hazards.md)

A step is cut into the access that is fetched and what the observer sees of it; a run is cut into the accesses that complete and
the one that does not. -/

section
namespace Sys2Proof.Machine

/-- Settles O10. -/
theorem readSucceedsExactlyWhenPermitted : Obligations.ReadSucceedsExactlyWhenPermitted := by
  intro s t
  simp only [exec_mrs_next_iff, exists_and_left, exists_eq', and_true]

/-! ## What a step runs -/

/-- A step whose access is an instruction executes it. -/
theorem step_of_fetch_run {s s1 : State} {i : Instr} (h : fetch s = .run i s1) : step s = exec i s1 := by
  rw [step, h]

/-- A word or access that decodes is executed under its own context (R47). -/
theorem fetchInstr_ok (i : Instr) (ctx : Ctx) (rest : List Request) (s : State) :
    fetchInstr (.ok i) ctx rest s = .run i { s with ctx := ctx, pending := rest } := rfl

/-- Settles O34. -/
theorem stepRunsTheDecodedInstruction : Obligations.StepRunsTheDecodedInstruction := by
  intro s ctx rest i
  refine ⟨fun w hp hd => ?_, fun a hp hd => ?_⟩ <;> apply step_of_fetch_run
  · simp only [fetch, hp, hd, fetchInstr_ok]
  · simp only [fetch, hp, hd, fetchInstr_ok]

/-! ## The two agents (R115) -/

/-- A permitted read at the head of the list is served: its register is written and its context is in force. -/
theorem step_mrs_word {s : State} {ctx : Ctx} {t : RegNum} {rest : List Request}
    (hp : s.pending = .word ctx (encode (.mrsTrcidr4 t)) :: rest) (hpermitted : ReadPermitted s.cfg ctx) :
    step s = .next (State.writeX { s with ctx := ctx, pending := rest } t (trcidr4 s.cfg)) := by
  rw [(stepRunsTheDecodedInstruction s ctx rest _).1 _ hp (decodeWord_encode _)]
  exact (exec_mrs_next_iff ..).2 ⟨hpermitted, rfl⟩

/-- A permitted external read at the head of the list is served where the register is present. -/
theorem step_extRead {s : State} {rest : List Request} (hp : s.pending = .extRead true :: rest)
    (hpresent : s.cfg.eteImplemented = true) :
    step s = .next (deliverExternal (trcidr4Ext s.cfg) { s with pending := rest }) := by
  rw [externalReadGivesTheLowWord s true rest hp, if_pos ⟨hpresent, rfl⟩]
  rfl

/-- A delivery to the External reader and the end of its access commute with a register write. -/
theorem deliverExternal_writeX (s : State) (rest : List Request) (t : RegNum) (v : XWord) (w : Word) :
    deliverExternal w { s.writeX t v with pending := rest } =
      State.writeX (deliverExternal w { s with pending := rest }) t v := by
  unfold State.writeX
  split <;> rfl

theorem runFor_succ_of_next {s s1 : State} (n : Nat) (h : step s = .next s1) : runFor (n + 1) s = runFor n s1 := by
  rw [runFor, h]

/-- Two accesses that complete are a final run. -/
theorem runFor_two {s s1 s2 : State} (h1 : step s = .next s1) (h2 : step s1 = .next s2) : runFor 2 s = .final s2 := by
  rw [runFor_succ_of_next 1 h1, runFor_succ_of_next 0 h2, runFor]

/-- Settles O39: the read's write and the external read's delivery commute. -/
theorem orderOfTheTwoAgentsIsNotObservable : Obligations.OrderOfTheTwoAgentsIsNotObservable := by
  intro s ctx t rest hpermitted
  have ⟨hpresent, _⟩ := hpermitted
  have hreadFirst := runFor_two
    (step_mrs_word (s := { s with pending := .word ctx (encode (.mrsTrcidr4 t)) :: .extRead true :: rest }) rfl hpermitted)
    (step_extRead (State.writeX_pending ..) (by rwa [State.writeX_cfg]))
  have hexternalFirst := runFor_two
    (step_extRead (s := { s with pending := .extRead true :: .word ctx (encode (.mrsTrcidr4 t)) :: rest }) rfl hpresent)
    (step_mrs_word rfl hpermitted)
  rw [deliverExternal_writeX, State.writeX_cfg] at hreadFirst
  exact ⟨_, hreadFirst, hexternalFirst⟩

/-! ## What the observer sees of a step -/

/-- An instruction concludes the access it makes. -/
theorem exec_eq_conclude (i : Instr) (s : State) : exec i s = conclude i (instrOutcome s.cfg s.ctx i) s := by
  cases i <;> rfl

/-- An instruction faults exactly as its access does. -/
theorem conclude_fault {i : Instr} {o : AccessOutcome} {s : State} {f : Fault} (h : conclude i o s = .fault f) :
    (o = .undefined ∧ f = .undefined i) ∨ ∃ target ec, o = .trap target ec ∧ f = .systemAccessTrap target ec i := by
  cases o with
  | value v => cases h
  | undefined => exact .inl ⟨rfl, (Host.Outcome.fault.inj h).symm⟩
  | trap target ec => exact .inr ⟨target, ec, rfl, (Host.Outcome.fault.inj h).symm⟩

/-- The write form raises no trap, and the read's traps have the one code. -/
theorem instrOutcome_trap_ec {cfg : Cfg} {c : Ctx} {i : Instr} {target : TrapTarget} {ec : BitVec 6}
    (h : instrOutcome cfg c i = .trap target ec) : ec = trapEc := by
  cases i with
  | mrsTrcidr4 t => exact access_trap_ec h
  | msrTrcidr4 t => cases h

theorem observe_of_fetch_run {s s1 : State} {i : Instr} (h : fetch s = .run i s1) :
    observe s = some (.direct (instrOutcome s1.cfg s1.ctx i)) := by
  rw [observe, h]

theorem observe_of_fetch_external {s s1 : State} {w : Word} (h : fetch s = .external w s1) :
    observe s = some (.external w) := by
  rw [observe, h]

theorem observe_of_fetch_stop {s : State} {r : Refusal} (h : fetch s = .stop r) : observe s = none := by
  rw [observe, h]

/-- A step that completes is seen as completed. -/
theorem observe_of_step_next {s s' : State} (h : step s = .next s') : ∃ o, observe s = some o ∧ o.completes = true := by
  rcases step_next h with ⟨i, s1, -, hfetch, hexec, -, -⟩ | ⟨w, s1, hfetch, -⟩
  · rw [exec_eq_conclude] at hexec
    obtain ⟨v, hv, -⟩ := conclude_next hexec
    exact ⟨.direct (.value v), by rw [observe_of_fetch_run hfetch, hv], rfl⟩
  · exact ⟨.external w, observe_of_fetch_external hfetch, rfl⟩

/-- Only an instruction faults. -/
theorem step_fault {s : State} {f : Fault} (h : step s = .fault f) : ∃ i s1, fetch s = .run i s1 ∧ exec i s1 = .fault f := by
  unfold step at h
  split at h
  next i s1 hfetch => exact ⟨i, s1, hfetch, h⟩
  next => cases h
  next => cases h

/-- Only an access that is stopped is refused. -/
theorem step_refused {s : State} {r : Refusal} (h : step s = .refused r) : fetch s = .stop r := by
  unfold step at h
  split at h
  next i s1 hfetch => exact absurd (exec_eq_conclude i s1 ▸ h) conclude_not_refused
  next => cases h
  next r' hfetch => rw [hfetch, Host.Outcome.refused.inj h]

/-- A step that faults is seen as the outcome that its fault names (R91, R92). -/
theorem observe_of_step_fault {s : State} {f : Fault} (h : step s = .fault f) : ∃ o, observe s = some (.direct o) ∧
    ((o = .undefined ∧ ∃ i, f = .undefined i) ∨
      ∃ target i, o = .trap target 0x18#6 ∧ f = .systemAccessTrap target 0x18#6 i) := by
  obtain ⟨i, s1, hfetch, hexec⟩ := step_fault h
  refine ⟨_, observe_of_fetch_run hfetch, ?_⟩
  rw [exec_eq_conclude] at hexec
  rcases conclude_fault hexec with ⟨ho, hf⟩ | ⟨target, ec, ho, hf⟩
  · exact .inl ⟨ho, i, hf⟩
  · obtain rfl := instrOutcome_trap_ec ho
    exact .inr ⟨target, i, ho, hf⟩

/-- Nothing is seen of a step that is refused. -/
theorem observe_of_step_refused {s : State} {r : Refusal} (h : step s = .refused r) : observe s = none :=
  observe_of_fetch_stop (step_refused h)

/-! ## A run and the accesses it completes (R116) -/

/-- The outcomes of a run whose first access completes. -/
theorem outcomesFor_succ_of_next {s s1 : State} {o : Seen} (n : Nat) (h : step s = .next s1) (hseen : observe s = some o) :
    outcomesFor (n + 1) s = o :: outcomesFor n s1 := by
  rw [outcomesFor, hseen, h]

theorem core_run_succ_of_next {s s1 : State} (n : Nat) (h : step s = .next s1) : core.run (n + 1) s = core.run n s1 := by
  have hcore : core.step s = .next s1 := h
  simp only [Host.Core.run, hcore]

/-- A run ends at an access that faults, in the state before it (R79). -/
theorem runFor_succ_of_fault {s : State} {f : Fault} (n : Nat) (h : step s = .fault f) : runFor (n + 1) s = .faulted s f := by
  rw [runFor, h]

theorem runFor_succ_of_refused {s : State} {r : Refusal} (n : Nat) (h : step s = .refused r) :
    runFor (n + 1) s = .refused s r := by
  rw [runFor, h]

/-- The outcome of an access that faults is the last one. -/
theorem outcomesFor_succ_of_fault {s : State} {f : Fault} {o : Seen} (n : Nat) (h : step s = .fault f)
    (hseen : observe s = some o) : outcomesFor (n + 1) s = [o] := by
  rw [outcomesFor, hseen, h]

theorem outcomesFor_succ_of_refused {s : State} {r : Refusal} (n : Nat) (h : step s = .refused r) :
    outcomesFor (n + 1) s = [] := by
  rw [outcomesFor, observe_of_step_refused h]

/-- A run goes on from where its first `k` accesses lead. -/
theorem runFor_add {k : Nat} {s s' : State} (h : core.run k s = .next s') (m : Nat) :
    runFor (k + m) s = runFor m s' := by
  induction k generalizing s with
  | zero =>
    cases h
    rw [Nat.zero_add]
  | succ k ih =>
    obtain ⟨s1, hstep, hrun⟩ := core_run_succ_next h
    rw [Nat.succ_add, runFor_succ_of_next _ hstep, ih hrun]

/-- Accesses that complete have one outcome each, each a completed one, and the outcomes of what follows come after them. -/
theorem outcomesFor_add {k : Nat} {s s' : State} (h : core.run k s = .next s') :
    (outcomesFor k s).length = k ∧ (∀ o ∈ outcomesFor k s, o.completes = true) ∧
      ∀ m, outcomesFor (k + m) s = outcomesFor k s ++ outcomesFor m s' := by
  induction k generalizing s with
  | zero =>
    cases h
    exact ⟨rfl, by simp [outcomesFor], fun m => by rw [Nat.zero_add]; rfl⟩
  | succ k ih =>
    obtain ⟨s1, hstep, hrun⟩ := core_run_succ_next h
    obtain ⟨o, hseen, ho⟩ := observe_of_step_next hstep
    obtain ⟨hlen, hall, happend⟩ := ih hrun
    rw [outcomesFor_succ_of_next k hstep hseen]
    refine ⟨by rw [List.length_cons, hlen], List.forall_mem_cons.2 ⟨ho, hall⟩, fun m => ?_⟩
    rw [Nat.succ_add, outcomesFor_succ_of_next _ hstep hseen, happend, List.cons_append]

/-- Either `n` accesses complete, or there is a first that does not. -/
theorem core_run_completes_or_stops (n : Nat) (s : State) :
    (∃ s', core.run n s = .next s') ∨
      ∃ k m s', n = k + (m + 1) ∧ core.run k s = .next s' ∧ ∀ s'', step s' ≠ .next s'' := by
  induction n generalizing s with
  | zero => exact .inl ⟨s, rfl⟩
  | succ n ih =>
    by_cases hstep : ∃ s1, step s = .next s1
    · obtain ⟨s1, hstep⟩ := hstep
      rcases ih s1 with ⟨s', hrun⟩ | ⟨k, m, s', rfl, hrun, hstops⟩
      · exact .inl ⟨s', by rw [core_run_succ_of_next n hstep, hrun]⟩
      · exact .inr ⟨k + 1, m, s', by omega, by rw [core_run_succ_of_next k hstep, hrun], hstops⟩
    · exact .inr ⟨0, n, s, by omega, rfl, not_exists.1 hstep⟩

/-- Settles O43: the run is cut at the first access that does not complete, and there either faults or is refused. -/
theorem runEndsAtTheFirstAccessThatFails : Obligations.RunEndsAtTheFirstAccessThatFails := by
  intro s
  unfold run outcomes
  rcases core_run_completes_or_stops s.pending.length s with ⟨s', hrun⟩ | ⟨k, m, s', hn, hrun, hstops⟩
  · obtain ⟨hlen, hall, -⟩ := outcomesFor_add hrun
    obtain ⟨-, -, hdrop⟩ := runsNeverChangeTheRegister _ s s' hrun
    have hfinal : runFor s.pending.length s = .final s' := runFor_add hrun 0
    rw [hfinal]
    exact ⟨hrun, by rw [hdrop, List.drop_length], hlen, hall⟩
  · obtain ⟨hlen, hall, happend⟩ := outcomesFor_add hrun
    have hk : k < k + (m + 1) := by omega
    rw [hn, runFor_add hrun, happend]
    cases hstep : step s' with
    | next s'' => exact absurd hstep (hstops s'')
    | fault f =>
      obtain ⟨o, hseen, hraised⟩ := observe_of_step_fault hstep
      rw [runFor_succ_of_fault m hstep, outcomesFor_succ_of_fault m hstep hseen]
      have htake : (outcomesFor k s ++ [Seen.direct o]).take k = outcomesFor k s := List.take_left' hlen
      refine ⟨hstep, k, o, hk, hrun, by rw [htake], ?_, by rwa [htake], hraised⟩
      rw [List.length_append, hlen, List.length_singleton]
    | refused r =>
      rw [runFor_succ_of_refused m hstep, outcomesFor_succ_of_refused m hstep, List.append_nil]
      exact ⟨hstep, k, hk, hrun, hlen, hall⟩

end Sys2Proof.Machine
end
